-- ==== Sys2Proof/Word.lean ====
section
/-! DEFINITION. The words of the ASK block and the one-bit values it keys and samples
(00_scope.md rule R10: all values are unsigned; 20_memory.md rule R65: widths moved by port). -/

namespace Sys2Proof

/-- An 8-bit value: address, command, data, tuning value, register, tick count. -/
abbrev Byte := BitVec 8

/-- A 16-bit house code (10_state.md rule R21). -/
abbrev HouseCode := BitVec 16

/-- A 48-bit command word (30_encoding.md rule R90). -/
abbrev CommandWord := BitVec 48

/-- One bit of a frame, or a one-bit level: `true` is 1. -/
abbrev Bit := Bool

end Sys2Proof
end

