-- ==== Sys2Proof/Config.lean ====
section
/-! DEFINITION. What an implementation fixes (the open parameters of 00_scope.md rule R9), the turns
that the agents of 00_scope.md rule R6 take, and the one free value of the model: which agent moves
next where nothing says so. -/

namespace Sys2Proof.Config

/-- The open parameters of 00_scope.md rule R9. They are fixed when the block is built. -/
structure Params where
  /-- `F_CLK_HZ`, the clock frequency in hertz. -/
  fClkHz : Nat
  /-- `PRESCALER_CANDIDATES`, in increasing order. -/
  prescalerCandidates : List Nat
  /-- `FORMAT_B_ENABLED`: `SEND_B` is a command of this build. -/
  formatBEnabled : Bool
  /-- `DEBUG_BUILD`: `SET_DEBUG` is a command of this build. -/
  debugBuild : Bool
  /-- `MIRROR_EDGE`: the edge direction is mirrored onto the status indicator. -/
  mirrorEdge : Bool
deriving DecidableEq, Repr

/-- The reference values of 00_scope.md rule R9, chosen by the spec for its test vectors.
DESIGN CHOICE (log 4): `State.reset` is a machine of this build. -/
def Params.reference : Params where
  fClkHz := 16000000
  prescalerCandidates := [1, 8, 64, 256, 1024]
  formatBEnabled := true
  debugBuild := true
  mirrorEdge := true

/-- One turn: which agent moves next, with what the outside world supplies to that move
(20_memory.md rules R61 and R80). The Command agent and the Capture agent have at most one enabled
step each, so naming the agent names the step (log 1). -/
inductive Move where
  /-- The Command agent: the accept step when idle, else the sequencer's next step. -/
  | command
  /-- The Capture agent: init, edge service, timeout service or return. -/
  | capture
  /-- The Timing Base: one tick (43_timing_base.md rule R200). -/
  | tick
  /-- The environment toggles the input (60_exceptions.md rule R229). -/
  | edge
  /-- The host presents a word on the command port. -/
  | present (w : CommandWord)
  /-- The host stops presenting a word. -/
  | withdraw
  /-- The configuration master reads register `n` (20_memory.md rule R66). -/
  | cfgRead (n : Fin 8)
  /-- The configuration master writes register `n` (20_memory.md rule R66). -/
  | cfgWrite (n : Fin 8) (v : Byte)
deriving DecidableEq, Repr, Inhabited

/-- FREE VALUE (log 2): the turn taken when the schedule held in the state names none. The spec fixes
no interleaving (20_memory.md rule R72, 60_exceptions.md rule R239), so nothing is known of it. -/
opaque freeMove : Nat → Move

end Sys2Proof.Config
end

