-- ==== Sys2Proof/Syntax.lean ====
section
/-! DEFINITION. The five commands of the block, one constructor per row of the opcode table
(30_encoding.md rules R90 and R93). -/

namespace Sys2Proof

/-- A decoded command word. Every field has exactly the width of the word's field, so no operand
can be out of range (30_encoding.md rule R94). -/
inductive Instr where
  /-- `SEND_A` (41_transmit_scheduler.md rule R169). -/
  | sendA (hc : HouseCode) (addr cmd data : Byte)
  /-- `SEND_B` (41_transmit_scheduler.md rule R176). -/
  | sendB (hc : HouseCode) (addr cmd data : Byte)
  /-- `SET_GAIN` (42_tuning_and_debug.md rule R180). -/
  | setGain (val : Byte)
  /-- `SET_DRSSI` (42_tuning_and_debug.md rule R181). -/
  | setDrssi (val : Byte)
  /-- `SET_DEBUG` (42_tuning_and_debug.md rule R186). -/
  | setDebug (val : Byte)
deriving DecidableEq, Repr

end Sys2Proof
end

