-- ==== Sys2Proof/WellFormed.lean ====
section
/-! DEFINITION. Which commands are commands of a build (30_encoding.md rule R117). Every value of
every operand is legal (30_encoding.md rule R119), so nothing else is checked. -/

namespace Sys2Proof

/-- `SEND_B` is legal only when `FORMAT_B_ENABLED`, `SET_DEBUG` only when `DEBUG_BUILD`
(30_encoding.md rule R117); the other three always. -/
def Instr.wellFormed (p : Config.Params) : Instr → Bool
  | .sendA _ _ _ _ => true
  | .sendB _ _ _ _ => p.formatBEnabled
  | .setGain _ => true
  | .setDrssi _ => true
  | .setDebug _ => p.debugBuild

end Sys2Proof
end

