-- ==== Sys2Proof/Decode.lean ====
section
/-! DEFINITION. Decoding a command word (30_encoding.md rules R90 to R94), total and rejecting by
name, and the encoder written from the same tables. -/

namespace Sys2Proof

/-- Why a word is `Invalid` (30_encoding.md rule R94). Each is executed as `ParseError`. -/
inductive DecodeError where
  /-- `OP` is `0x00` or `0x06` to `0xFF` (30_encoding.md rule R116). -/
  | reservedOpcode
  /-- A format `V` word with a non-zero bit in 39:8 (30_encoding.md rule R118). -/
  | reservedBits
  /-- `SEND_B` in a build without FORMAT-B (30_encoding.md rule R117). -/
  | formatBNotBuilt
  /-- `SET_DEBUG` in a build without the debug flag (30_encoding.md rule R117). -/
  | debugNotBuilt
deriving DecidableEq, Repr

/-- Bits 47:40, the opcode (30_encoding.md rule R90). -/
def opField (w : CommandWord) : Byte := w.extractLsb' 40 8

/-- Bits 39:24, the house code of format `S`. -/
def hcField (w : CommandWord) : HouseCode := w.extractLsb' 24 16

/-- Bits 23:16, the address of format `S`. -/
def addrField (w : CommandWord) : Byte := w.extractLsb' 16 8

/-- Bits 15:8, the command of format `S`. -/
def cmdField (w : CommandWord) : Byte := w.extractLsb' 8 8

/-- Bits 7:0: the data of format `S`, the value of format `V`. -/
def lowField (w : CommandWord) : Byte := w.extractLsb' 0 8

/-- Bits 39:8, reserved in format `V`. -/
def zeroField (w : CommandWord) : BitVec 32 := w.extractLsb' 8 32

/-- `OP` of `SEND_A` (30_encoding.md rule R93). -/
def opSendA : Byte := 0x01
/-- `OP` of `SEND_B` (30_encoding.md rule R93). -/
def opSendB : Byte := 0x02
/-- `OP` of `SET_GAIN` (30_encoding.md rule R93). -/
def opSetGain : Byte := 0x03
/-- `OP` of `SET_DRSSI` (30_encoding.md rule R93). -/
def opSetDrssi : Byte := 0x04
/-- `OP` of `SET_DEBUG` (30_encoding.md rule R93). -/
def opSetDebug : Byte := 0x05

/-- The outcome of a 48-bit word in a build (30_encoding.md rule R94). -/
def decode (p : Config.Params) (w : CommandWord) : Except DecodeError Instr :=
  if opField w = opSendA then
    .ok (.sendA (hcField w) (addrField w) (cmdField w) (lowField w))
  else if opField w = opSendB then
    if p.formatBEnabled then
      .ok (.sendB (hcField w) (addrField w) (cmdField w) (lowField w))
    else .error .formatBNotBuilt
  else if opField w = opSetGain ∨ opField w = opSetDrssi ∨ opField w = opSetDebug then
    if zeroField w ≠ 0 then .error .reservedBits
    else if opField w = opSetGain then .ok (.setGain (lowField w))
    else if opField w = opSetDrssi then .ok (.setDrssi (lowField w))
    else if p.debugBuild then .ok (.setDebug (lowField w))
    else .error .debugNotBuilt
  else .error .reservedOpcode

/-- Format `S`: opcode, house code, address, command, data, from the top bit down
(30_encoding.md rule R90). -/
def formatS (op : Byte) (hc : HouseCode) (addr cmd data : Byte) : CommandWord :=
  op ++ hc ++ addr ++ cmd ++ data

/-- Format `V`: opcode, 32 zero bits, value (30_encoding.md rule R90). -/
def formatV (op val : Byte) : CommandWord := op ++ (0 : BitVec 32) ++ val

/-- The command word of an instruction (30_encoding.md rules R90 and R93). -/
def encode : Instr → CommandWord
  | .sendA hc addr cmd data => formatS opSendA hc addr cmd data
  | .sendB hc addr cmd data => formatS opSendB hc addr cmd data
  | .setGain v => formatV opSetGain v
  | .setDrssi v => formatV opSetDrssi v
  | .setDebug v => formatV opSetDebug v

/-- The command word whose low `nbits` bits are those of `w`, the bits above them zero. A word comes
whole on the command port, so there is no byte order to choose (20_memory.md rule R64). -/
def tableWord (nbits w : Nat) : CommandWord := BitVec.ofNat 48 (w % 2 ^ nbits)

/-- What the decoder reads from a word given as the opcode table numbers its bits, in the reference
build, which has every command (00_scope.md rule R9). -/
def decodeTableWord (nbits w : Nat) : Option Instr :=
  match decode Config.Params.reference (tableWord nbits w) with
  | .ok i => some i
  | .error _ => none

end Sys2Proof
end

