-- ==== Sys2Proof/Machine/State.lean ====
section
/-! DEFINITION. The state of the ASK block (10_state.md), grouped by the owner each rule names, as
plain data; the reasons a step can stop; the state after reset (10_state.md rule R41). -/

namespace Sys2Proof.Machine

/-- The wire format of a frame (10_state.md rule R21, latch `VAR`). -/
inductive Variant where
  | formatA
  | formatB
deriving DecidableEq, Repr

/-- Which command is in execution (10_state.md rule R21, latch `KIND`). -/
inductive Kind where
  | send
  | gain
  | drssi
deriving DecidableEq, Repr

/-- The next step of the Command agent (10_state.md rule R24, `SEQ.st`). -/
inductive St where
  | idle
  | txBegin
  | txOn
  | txOff
  | txEnd
  | txDelay
  | txReact
  | tune
deriving DecidableEq, Repr

/-- The sequencer position `SEQ` (10_state.md rule R24). `rep` and `idx` are counts that no rule
wraps; `Safety.lean` bounds them by an invariant. -/
structure Seq where
  st : St
  rep : Nat
  idx : Nat
deriving DecidableEq, Repr

/-- The state owned by the Command agent (10_state.md rules R21, R24, R25, R28). `CHK` is computed
from the latches (10_state.md rule R22) and has no field. -/
structure CommandAgent where
  /-- `VAR` -/
  var : Variant
  /-- `HC` -/
  hc : HouseCode
  /-- `ADDR` -/
  addr : Byte
  /-- `CMD` -/
  cmd : Byte
  /-- `DATA` -/
  data : Byte
  /-- `VAL` -/
  val : Byte
  /-- `KIND` -/
  kind : Kind
  /-- `SEQ` -/
  seq : Seq
  /-- `BUSY` -/
  busy : Bool
  /-- `DEBUG`, register 4 -/
  debug : Byte
deriving DecidableEq, Repr

/-- The registers owned by the configuration master (10_state.md rules R30 and R31). -/
structure ConfigRegs where
  /-- `OCR`, register 1 -/
  ocr : Byte
  /-- `EDGE_IE`, bit 0 of `CTRL` -/
  edgeIe : Bool
  /-- `CMP_IE`, bit 1 of `CTRL` -/
  cmpIe : Bool
deriving DecidableEq, Repr

/-- The two interrupt sources (60_exceptions.md rule R225), the values of `FIRST`. -/
inductive Source where
  | edge
  | cmp
deriving DecidableEq, Repr

/-- The state owned by the Capture agent (10_state.md rules R33 to R36). -/
structure CaptureAgent where
  /-- `EDGE_PEND`, bit 0 of `PEND` -/
  edgePend : Bool
  /-- `CMP_PEND`, bit 1 of `PEND` -/
  cmpPend : Bool
  /-- `FIRST`: of two pending sources, the one raised first -/
  first : Source
  /-- `IN_IRQ` -/
  inIrq : Bool
  /-- `INIT_DONE` -/
  initDone : Bool
  /-- `STATUS_IND`, bit 2 of `STATUS` -/
  statusInd : Bool
deriving DecidableEq, Repr

/-- The Radio Module Descriptor (10_state.md rule R38). -/
structure Descriptor where
  bandwidth : Byte
  gain : Byte
  drssi : Byte
deriving DecidableEq, Repr

/-- The state owned by the Radio Link (10_state.md rules R38 and R39). -/
structure RadioLink where
  /-- `RL.desc` -/
  desc : Descriptor
  /-- `RL.open`: a transaction is open -/
  isOpen : Bool
  /-- `RL.level`: the level last keyed -/
  level : Bit
deriving DecidableEq, Repr

/-- An element of the transmit trace (00_scope.md rule R7, 20_memory.md rule R77). -/
inductive TxOp where
  /-- `RL.begin()` -/
  | rlBegin
  /-- `RL.end()` -/
  | rlEnd
  /-- `RL.key(level, us)` -/
  | rlKey (level : Bit) (us : Nat)
  /-- `RL.reactivate()` -/
  | rlReactivate
  /-- `RL.setBGD(bw, g, d)` -/
  | rlSetBGD (bw g d : Byte)
  /-- `delay_us(n)` -/
  | delayUs (n : Nat)
deriving DecidableEq, Repr

/-- An element of the receive trace (00_scope.md rule R7, 20_memory.md rule R77). -/
inductive DecEvent where
  /-- `DEC.onInit()` -/
  | onInit
  /-- `DEC.onEdge(ticks, rising)` -/
  | onEdge (ticks : Byte) (rising : Bool)
  /-- `DEC.onTimeout()` -/
  | onTimeout
deriving DecidableEq, Repr

/-- An element of the result stream (30_encoding.md rule R115). -/
inductive ResultCode where
  /-- `OK`, code 0 -/
  | ok
  /-- `PARSE_ERROR`, code 1 -/
  | parseError
deriving DecidableEq, Repr

/-- The whole block. -/
structure State where
  /-- The build parameters (00_scope.md rule R9). No step writes them (log 4). -/
  params : Config.Params
  /-- The Command agent. -/
  command : CommandAgent
  /-- `TCNT`, register 0, owned by the Timing Base (10_state.md rule R29). -/
  tcnt : Byte
  /-- The configuration master's registers. -/
  config : ConfigRegs
  /-- The Capture agent. -/
  capture : CaptureAgent
  /-- `RX`, the input level (10_state.md rule R32). -/
  rx : Bool
  /-- The Radio Link. -/
  radio : RadioLink
  /-- The word the host presents on the command port, if any (20_memory.md rule R76; log 7). -/
  port : Option CommandWord
  /-- The model's own: the value the last `cfgRead` returned (log 8). -/
  cfgData : Option Byte
  /-- The transmit trace, oldest first. -/
  txTrace : List TxOp
  /-- The receive trace, oldest first. -/
  rxTrace : List DecEvent
  /-- The result stream, oldest first. -/
  results : List ResultCode
  /-- The model's own: the turns still to be taken, next first (log 1). -/
  schedule : List Config.Move
  /-- The model's own: how many turns `Config.freeMove` has supplied (log 2). -/
  turns : Nat
deriving DecidableEq, Repr

/-- Why the machine stops. The block itself has no fatal condition (60_exceptions.md rule R220). -/
inductive Fault where
  /-- Raised by the steps `TX_ON` and `TX_OFF` when `SEQ.idx` is outside the frame, which
  10_state.md rule R24 says never happens. Safe: no run reaches it (log 9). -/
  | frameIndexOutOfRange
deriving DecidableEq, Repr

/-- Why an instruction has no meaning. -/
inductive Refusal where
  /-- Raised by an arm of `exec` for an instruction without a meaning. Safe: it claims nothing. No
  arm uses it. -/
  | notModelled (mnemonic : String)
deriving DecidableEq, Repr

/-- The values that 10_state.md rule R41 leaves open at reset ("any"), and `RL.level`, for which it
gives none. -/
structure LaunchValues where
  var : Variant
  hc : HouseCode
  addr : Byte
  cmd : Byte
  data : Byte
  val : Byte
  kind : Kind
  tcnt : Byte
  ocr : Byte
  first : Source
  rx : Bool
  desc : Descriptor
  level : Bit
deriving DecidableEq, Repr

/-- The reset state of 10_state.md rule R41 for a build and a choice of the open values: nothing
presented, nothing scheduled. -/
def State.resetWith (p : Config.Params) (v : LaunchValues) : State where
  params := p
  command := {
    var := v.var
    hc := v.hc
    addr := v.addr
    cmd := v.cmd
    data := v.data
    val := v.val
    kind := v.kind
    seq := { st := .idle, rep := 0, idx := 0 }
    busy := false
    debug := 0x00 }
  tcnt := v.tcnt
  config := { ocr := v.ocr, edgeIe := false, cmpIe := false }
  capture := {
    edgePend := false
    cmpPend := false
    first := v.first
    inIrq := false
    initDone := false
    statusInd := false }
  rx := v.rx
  radio := { desc := v.desc, isOpen := false, level := v.level }
  port := none
  cfgData := none
  txTrace := []
  rxTrace := []
  results := []
  schedule := []
  turns := 0

/-- The values `State.reset` takes where 10_state.md rule R41 says "any".
DESIGN CHOICE, unsafe (logs 5 and 6): zero, and the first name of each enumeration. -/
def LaunchValues.zero : LaunchValues where
  var := .formatA
  hc := 0
  addr := 0
  cmd := 0
  data := 0
  val := 0
  kind := .send
  tcnt := 0
  ocr := 0
  first := .edge
  rx := false
  desc := { bandwidth := 0, gain := 0, drssi := 0 }
  level := false

/-- The machine right after reset, of the reference build (logs 4, 5, 6). -/
def State.reset : State := State.resetWith Config.Params.reference LaunchValues.zero

end Sys2Proof.Machine
end

