-- ==== Sys2Proof/Machine/Flags.lean ====
section
/-! DEFINITION. Every one-bit condition that a rule of the block tests (10_state.md rule R26). There
is no carry, zero, sign or overflow flag. -/

namespace Sys2Proof.Machine

/-- `CMD[5]`: the data-present bit (40_frame_encoder.md rule R135). -/
def hasData (cmd : Byte) : Bool := cmd.getLsbD 5

/-- The even-parity bit of a byte, the exclusive or of its 8 bits (40_frame_encoder.md rule R132). -/
def parity (b : Byte) : Bit :=
  b.getLsbD 7 ^^ b.getLsbD 6 ^^ b.getLsbD 5 ^^ b.getLsbD 4 ^^
    b.getLsbD 3 ^^ b.getLsbD 2 ^^ b.getLsbD 1 ^^ b.getLsbD 0

/-- The accept step is enabled, given a presented word: `INIT_DONE = 1`, `BUSY = 0` and the sequencer
is idle (41_transmit_scheduler.md rules R161 and R172). -/
def acceptEnabled (s : State) : Bool :=
  s.capture.initDone && !s.command.busy && s.command.seq.st == .idle

/-- The edge service step is enabled (60_exceptions.md rule R231). -/
def edgeServiceEnabled (s : State) : Bool :=
  s.capture.initDone && s.capture.edgePend && !s.capture.inIrq
    && (!s.capture.cmpPend || s.capture.first == .edge)

/-- The timeout service step is enabled (60_exceptions.md rule R236). -/
def timeoutServiceEnabled (s : State) : Bool :=
  s.capture.initDone && s.capture.cmpPend && !s.capture.inIrq
    && (!s.capture.edgePend || s.capture.first == .cmp)

/-- The return step is enabled (60_exceptions.md rule R240, 10_state.md rule R36). -/
def returnEnabled (s : State) : Bool := s.capture.initDone && s.capture.inIrq

/-- The two execution contexts of 60_exceptions.md rule R250. -/
inductive Context where
  | mainloop
  | interrupt
deriving DecidableEq, Repr

/-- The Capture agent's context: interrupt from a service step to its return step
(60_exceptions.md rule R251). -/
def captureContext (s : State) : Context := if s.capture.inIrq then .interrupt else .mainloop

end Sys2Proof.Machine
end

