-- ==== Sys2Proof/Machine/Operands.lean ====
section
/-! DEFINITION. How operands become the bytes of a frame (30_encoding.md rule R95,
40_frame_encoder.md rules R131, R134, R136). -/

namespace Sys2Proof.Machine

/-- `hh = HC[15:8]`, the high byte of the house code (30_encoding.md rule R95). -/
def houseHigh (hc : HouseCode) : Byte := hc.extractLsb' 8 8

/-- `hl = HC[7:0]`, the low byte of the house code. -/
def houseLow (hc : HouseCode) : Byte := hc.extractLsb' 0 8

/-- The checksum base: `BASE_A`, `BASE_B` (40_frame_encoder.md rule R134). -/
def checksumBase : Variant → Byte
  | .formatA => 0x06
  | .formatB => 0x0c

/-- The checksum: the sum over natural numbers reduced modulo 256 once at the end
(40_frame_encoder.md rule R131). -/
def checksum (v : Variant) (hc : HouseCode) (addr cmd data : Byte) : Byte :=
  BitVec.ofNat 8 ((checksumBase v).toNat + (houseHigh hc).toNat + (houseLow hc).toNat + addr.toNat
    + cmd.toNat + (if hasData cmd then data.toNat else 0))

/-- The bytes of a frame, in order of transmission (40_frame_encoder.md rule R136). -/
def fieldBytes (v : Variant) (hc : HouseCode) (addr cmd data : Byte) : List Byte :=
  [houseHigh hc, houseLow hc, addr, cmd]
    ++ (if hasData cmd then [data] else [])
    ++ [checksum v hc addr cmd data]

/-- `CHK`, at every moment the checksum of the latches (10_state.md rule R22). -/
def State.chk (s : State) : Byte :=
  checksum s.command.var s.command.hc s.command.addr s.command.cmd s.command.data

end Sys2Proof.Machine
end

