-- ==== Sys2Proof/Machine/FrameEncoder.lean ====
section
/-! DEFINITION. The Frame Encoder's serialisation and pulses (40_frame_encoder.md rules R133, R137 to
R142) and the whole trace of a send (41_transmit_scheduler.md rules R160, R170, R173). All pure. -/

namespace Sys2Proof.Machine

/-- `msb_first_N(v)` (00_scope.md rule R10). -/
def msbFirst {n : Nat} (v : BitVec n) : List Bit := (List.range n).map fun i => v.getLsbD (n - 1 - i)

/-- The byte field: 8 bits most significant first, then the parity bit
(40_frame_encoder.md rule R133). -/
def field9 (b : Byte) : List Bit := msbFirst b ++ [parity b]

/-- The sync pattern: 13 bits, the value 1, no parity (30_encoding.md rule R101). -/
def syncBits : List Bit := msbFirst (1 : BitVec 13)

/-- The stop field: one 0 bit, no parity (30_encoding.md rule R103). -/
def stopBits : List Bit := [false]

/-- The frame's bit sequence, first sent first (40_frame_encoder.md rule R137). -/
def frameBits (v : Variant) (hc : HouseCode) (addr cmd data : Byte) : List Bit :=
  syncBits ++ (fieldBytes v hc addr cmd data).flatMap field9 ++ stopBits

/-- `width(b)` in microseconds (40_frame_encoder.md rule R138). -/
def pulseWidth (b : Bit) : Nat := if b then 600 else 400

/-- The on-pulse's duration (40_frame_encoder.md rule R138). -/
def onDuration (b : Bit) : Nat := pulseWidth b + 150

/-- The off-pulse's duration (40_frame_encoder.md rule R138). -/
def offDuration (b : Bit) : Nat := pulseWidth b - 200

/-- The two operations that emit one bit (40_frame_encoder.md rule R139). -/
def emitBit (b : Bit) : List TxOp := [.rlKey true (onDuration b), .rlKey false (offDuration b)]

/-- The pulse train of a bit sequence (40_frame_encoder.md rule R140). -/
def pulseTrain (bits : List Bit) : List TxOp := bits.flatMap emitBit

/-- `encodeAndTransmit`: the operations of one frame (40_frame_encoder.md rule R130). -/
def encodeAndTransmit (v : Variant) (hc : HouseCode) (addr cmd data : Byte) : List TxOp :=
  pulseTrain (frameBits v hc addr cmd data)

/-- `REPETITIONS` (00_scope.md rule R8). -/
def repetitions : Nat := 3

/-- `REPEAT_DELAY_US` (00_scope.md rule R8). -/
def repeatDelayUs : Nat := 10000

/-- One repetition of a send: open, frame, close, wait (41_transmit_scheduler.md rule R160). -/
def repetition (v : Variant) (hc : HouseCode) (addr cmd data : Byte) : List TxOp :=
  [.rlBegin] ++ encodeAndTransmit v hc addr cmd data ++ [.rlEnd, .delayUs repeatDelayUs]

/-- `send` as one trace segment (41_transmit_scheduler.md rules R160 and R170). -/
def sendTrace (v : Variant) (hc : HouseCode) (addr cmd data : Byte) : List TxOp :=
  (List.replicate repetitions (repetition v hc addr cmd data)).flatten ++ [.rlReactivate]

/-- The duration in microseconds that an operation carries (70_reset_and_hazards.md rule R295). -/
def TxOp.duration : TxOp → Nat
  | .rlKey _ us => us
  | .delayUs n => n
  | .rlBegin => 0
  | .rlEnd => 0
  | .rlReactivate => 0
  | .rlSetBGD _ _ _ => 0

/-- The sum of the durations of a trace segment (41_transmit_scheduler.md rule R173). -/
def traceDuration (ops : List TxOp) : Nat := (ops.map TxOp.duration).sum

/-- The bits of the frame in the latches. -/
def State.frame (s : State) : List Bit :=
  frameBits s.command.var s.command.hc s.command.addr s.command.cmd s.command.data

/-- The bit `SEQ.idx` points at, none outside the frame. -/
def State.currentBit (s : State) : Option Bit := s.frame[s.command.seq.idx]?

end Sys2Proof.Machine
end

