-- ==== Sys2Proof/Machine/Ops.lean ====
section
/-! DEFINITION. The named operations every step is built from: the port primitives of
20_memory.md rule R77, the result stream, the writes of `SEQ` and the latches, taking the exception
`ParseError`, and entering and leaving an interrupt handler. -/

namespace Sys2Proof.Machine

/-- Append an operation to the transmit trace. -/
def State.emitTx (s : State) (op : TxOp) : State := { s with txTrace := s.txTrace ++ [op] }

/-- Append an event to the receive trace. -/
def State.emitRx (s : State) (e : DecEvent) : State := { s with rxTrace := s.rxTrace ++ [e] }

/-- `result(code)` (00_scope.md rule R11). -/
def State.emitResult (s : State) (c : ResultCode) : State := { s with results := s.results ++ [c] }

/-- The numeric value of a result code on the command port (30_encoding.md rule R115). -/
def ResultCode.toNat : ResultCode → Nat
  | .ok => 0
  | .parseError => 1

/-! ### The Radio Link port (20_memory.md rule R77; log 17) -/

/-- `RL.begin()`: opens a transaction. -/
def State.rlBegin (s : State) : State :=
  { s with radio := { s.radio with isOpen := true } }.emitTx .rlBegin

/-- `RL.end()`: closes the transaction. -/
def State.rlEnd (s : State) : State :=
  { s with radio := { s.radio with isOpen := false } }.emitTx .rlEnd

/-- `RL.key(level, us)`: holds the output at `level` for `us` microseconds. -/
def State.rlKey (s : State) (level : Bit) (us : Nat) : State :=
  { s with radio := { s.radio with level := level } }.emitTx (.rlKey level us)

/-- `RL.reactivate()`: restores receive mode; what it changes in the radio chip is not modelled
(10_state.md rule R39). -/
def State.rlReactivate (s : State) : State := s.emitTx .rlReactivate

/-- `RL.setBGD(bw, g, d)`: the descriptor becomes `(bw, g, d)` (42_tuning_and_debug.md rule R183). -/
def State.rlSetBGD (s : State) (bw g d : Byte) : State :=
  { s with radio := { s.radio with desc := { bandwidth := bw, gain := g, drssi := d } } }.emitTx
    (.rlSetBGD bw g d)

/-- `delay_us(n)`: an element of the transmit trace and nothing else
(41_transmit_scheduler.md rule R166). -/
def State.delayUs (s : State) (n : Nat) : State := s.emitTx (.delayUs n)

/-! ### The sequencer and the latches -/

/-- `SEQ <- (st, rep, idx)`. -/
def State.goTo (s : State) (st : St) (rep idx : Nat) : State :=
  { s with command := { s.command with seq := { st := st, rep := rep, idx := idx } } }

/-- `BUSY <- b`. -/
def State.setBusy (s : State) (b : Bool) : State :=
  { s with command := { s.command with busy := b } }

/-- The latch writes of an accepted send (41_transmit_scheduler.md rule R161). -/
def State.latchSend (s : State) (v : Variant) (hc : HouseCode) (addr cmd data : Byte) : State :=
  { s with command := { s.command with
      var := v, hc := hc, addr := addr, cmd := cmd, data := data, kind := .send } }

/-- The latch writes of an accepted tuning command (41_transmit_scheduler.md rule R161). -/
def State.latchTune (s : State) (k : Kind) (v : Byte) : State :=
  { s with command := { s.command with val := v, kind := k } }

/-- `DEBUG <- v` (42_tuning_and_debug.md rule R186). -/
def State.setDebug (s : State) (v : Byte) : State :=
  { s with command := { s.command with debug := v } }

/-- A send is accepted (41_transmit_scheduler.md rule R161). -/
def State.startSend (s : State) (v : Variant) (hc : HouseCode) (addr cmd data : Byte) : State :=
  ((s.latchSend v hc addr cmd data).setBusy true).goTo .txBegin 0 0

/-- A tuning command is accepted (41_transmit_scheduler.md rule R161). -/
def State.startTune (s : State) (k : Kind) (v : Byte) : State :=
  ((s.latchTune k v).setBusy true).goTo .tune 0 0

/-- The end of a command: `result(OK)`, `BUSY <- 0`, `SEQ <- (IDLE, 0, 0)`
(41_transmit_scheduler.md rule R168, 42_tuning_and_debug.md rule R182). -/
def State.finish (s : State) : State := ((s.emitResult .ok).setBusy false).goTo .idle 0 0

/-! ### Exception and interrupt entry and return -/

/-- `raise ParseError()`: the result `PARSE_ERROR` and no other effect; control goes nowhere
(60_exceptions.md rule R221). -/
def raiseParseError (s : State) : Host.Outcome State Fault Refusal :=
  .next (s.emitResult .parseError)

/-- Entering a handler: its pending flag is cleared, the context becomes the interrupt context, and
the event is forwarded (60_exceptions.md rules R231 and R236). Nothing is saved
(60_exceptions.md rule R240). -/
def State.enterHandler (s : State) (src : Source) (e : DecEvent) : State :=
  State.emitRx
    { s with capture := { s.capture with
        edgePend := s.capture.edgePend && src != .edge
        cmpPend := s.capture.cmpPend && src != .cmp
        inIrq := true } } e

/-- The return step: `IN_IRQ <- 0` and nothing else (60_exceptions.md rule R240). -/
def State.leaveHandler (s : State) : State :=
  { s with capture := { s.capture with inIrq := false } }

/-- A source raises its interrupt: a pending flag already set absorbs the event; `FIRST` records the
other source when that one is already pending (60_exceptions.md rules R229 and R230). The caller has
checked the source's enable. -/
def State.raiseInterrupt (s : State) : Source → State
  | .edge =>
    if s.capture.edgePend then s
    else { s with capture := { s.capture with
      edgePend := true
      first := if s.capture.cmpPend then .cmp else s.capture.first } }
  | .cmp =>
    if s.capture.cmpPend then s
    else { s with capture := { s.capture with
      cmpPend := true
      first := if s.capture.edgePend then .edge else s.capture.first } }

end Sys2Proof.Machine
end

