-- ==== Sys2Proof/Machine/Capture.lean ====
section
/-! DEFINITION. The receive half: the tick and edge steps that raise interrupts, and the Capture
agent's init, service and return steps (43_timing_base.md rule R200, 60_exceptions.md rules R229 to
R242, 70_reset_and_hazards.md rule R272). -/

namespace Sys2Proof.Machine

/-- Compare match (60_exceptions.md rule R230). -/
def compareMatch (s : State) : State := if s.config.cmpIe then s.raiseInterrupt .cmp else s

/-- `TCNT <- (TCNT + 1) mod 256` (43_timing_base.md rule R200). -/
def State.advanceCounter (s : State) : State := { s with tcnt := s.tcnt + 1 }

/-- Tick step: the compare is made once, on the value just reached (43_timing_base.md rule R200). -/
def tick (s : State) : State :=
  if s.tcnt + 1 = s.config.ocr then compareMatch s.advanceCounter else s.advanceCounter

/-- `RX <- not RX` (60_exceptions.md rule R229). -/
def State.toggleRx (s : State) : State := { s with rx := !s.rx }

/-- Edge step: both directions raise the interrupt alike (60_exceptions.md rule R229). -/
def edge (s : State) : State :=
  if s.config.edgeIe then s.toggleRx.raiseInterrupt .edge else s.toggleRx

/-- Init step: `DEC.onInit()`, then `INIT_DONE <- 1` (70_reset_and_hazards.md rule R272). -/
def init (s : State) : State :=
  { s with capture := { s.capture with initDone := true } }.emitRx .onInit

/-- Mirror the sampled level onto the status indicator, in a build that does so
(60_exceptions.md rule R231, 10_state.md rule R35). -/
def State.mirrorEdge (s : State) (r : Bool) : State :=
  if s.params.mirrorEdge then { s with capture := { s.capture with statusInd := r } } else s

/-- Edge service step: the counter and the level are sampled now and forwarded
(60_exceptions.md rule R231). -/
def serviceEdge (s : State) : State :=
  (s.mirrorEdge s.rx).enterHandler .edge (.onEdge s.tcnt s.rx)

/-- Timeout service step: the event carries no value (60_exceptions.md rules R236 and R237). -/
def serviceTimeout (s : State) : State := s.enterHandler .cmp .onTimeout

/-- The Capture agent's turn: its one enabled step, or nothing (60_exceptions.md rules R231, R236,
R238, R240, R242; 70_reset_and_hazards.md rule R272). -/
def captureTurn (s : State) : State :=
  if !s.capture.initDone then init s
  else if returnEnabled s then s.leaveHandler
  else if edgeServiceEnabled s then serviceEdge s
  else if timeoutServiceEnabled s then serviceTimeout s
  else s

end Sys2Proof.Machine
end

