-- ==== Sys2Proof/Machine/Tuning.lean ====
section
/-! DEFINITION. Receiver Tuning and the debug flag: the meanings of `SET_GAIN`, `SET_DRSSI` and
`SET_DEBUG`, and the step `TUNE` (42_tuning_and_debug.md rules R180 to R187). -/

namespace Sys2Proof.Machine

/-- `SET_GAIN` (42_tuning_and_debug.md rule R180): the accept step; the `TUNE` step follows. -/
def execSetGain (val : Byte) (s : State) : Host.Outcome State Fault Refusal :=
  .next (s.startTune .gain val)

/-- `SET_DRSSI` (42_tuning_and_debug.md rule R181): the accept step; the `TUNE` step follows. -/
def execSetDrssi (val : Byte) (s : State) : Host.Outcome State Fault Refusal :=
  .next (s.startTune .drssi val)

/-- `SET_DEBUG` (42_tuning_and_debug.md rule R186): done whole in the accept step. In a build without
the debug flag it raises `ParseError` (30_encoding.md rule R117). -/
def execSetDebug (val : Byte) (s : State) : Host.Outcome State Fault Refusal :=
  if s.params.debugBuild then .next ((s.setDebug val).emitResult .ok)
  else raiseParseError s

/-- The gain that the `TUNE` step passes on (42_tuning_and_debug.md rule R182). -/
def tuneGain (s : State) : Byte :=
  if s.command.kind = .gain then s.command.val else s.radio.desc.gain

/-- The DRSSI level that the `TUNE` step passes on (42_tuning_and_debug.md rule R182). -/
def tuneDrssi (s : State) : Byte :=
  if s.command.kind = .drssi then s.command.val else s.radio.desc.drssi

/-- Step `TUNE`: the reads and the combined transaction, one atomic step
(42_tuning_and_debug.md rule R182). -/
def tune (s : State) : State :=
  (s.rlSetBGD s.radio.desc.bandwidth (tuneGain s) (tuneDrssi s)).finish

/-- The debug flag as a reader sees it: hard-wired to `0x00` in a build without it
(10_state.md rule R28; log 15). -/
def State.debugView (s : State) : Byte := if s.params.debugBuild then s.command.debug else 0x00

end Sys2Proof.Machine
end

