-- ==== Sys2Proof/Machine/ConfigPort.lean ====
section
/-! DEFINITION. The configuration port: the eight registers of 10_state.md rule R37 and the two
accesses of 20_memory.md rule R66. -/

namespace Sys2Proof.Machine

/-- A register whose bits 2, 1, 0 are as given and whose bits 7:3 read as zero
(10_state.md rule R37). -/
def packBits (b2 b1 b0 : Bool) : Byte :=
  (0 : BitVec 5) ++ BitVec.ofBool b2 ++ BitVec.ofBool b1 ++ BitVec.ofBool b0

/-- The read view of `CTRL` (10_state.md rule R31). -/
def State.ctrlView (s : State) : Byte := packBits false s.config.cmpIe s.config.edgeIe

/-- The read view of `PEND` (10_state.md rule R33). -/
def State.pendView (s : State) : Byte := packBits false s.capture.cmpPend s.capture.edgePend

/-- The read view of `STATUS` (10_state.md rule R37). -/
def State.statusView (s : State) : Byte := packBits s.capture.statusInd s.rx s.command.busy

/-- `cfgRead(n)`: the read view of register `n` (10_state.md rule R37). -/
def cfgRead (n : Fin 8) (s : State) : Byte :=
  match n with
  | 0 => s.tcnt
  | 1 => s.config.ocr
  | 2 => s.ctrlView
  | 3 => s.pendView
  | 4 => s.debugView
  | 5 => s.statusView
  | 6 => 0x00
  | 7 => 0x00

/-- `cfgWrite(n, v)`: `OCR` and the two enables are written, every other write is ignored
(20_memory.md rule R66). No flag is set or cleared. -/
def cfgWrite (n : Fin 8) (v : Byte) (s : State) : State :=
  match n with
  | 1 => { s with config := { s.config with ocr := v } }
  | 2 => { s with config := { s.config with edgeIe := v.getLsbD 0, cmpIe := v.getLsbD 1 } }
  | _ => s

/-- The configuration master's read turn: enabled only when `INIT_DONE = 1`
(20_memory.md rule R66). The value read is kept for an observer (log 8). -/
def cfgReadTurn (n : Fin 8) (s : State) : State :=
  if s.capture.initDone then { s with cfgData := some (cfgRead n s) } else s

/-- The configuration master's write turn: enabled only when `INIT_DONE = 1`
(20_memory.md rule R66). -/
def cfgWriteTurn (n : Fin 8) (v : Byte) (s : State) : State :=
  if s.capture.initDone then cfgWrite n v s else s

end Sys2Proof.Machine
end

