-- ==== Sys2Proof/Machine/Send.lean ====
section
/-! DEFINITION. The send family: the meanings of `SEND_A` and `SEND_B` at their accept step, and the
sequencer's steps `TX_BEGIN` to `TX_REACT` (41_transmit_scheduler.md rules R161 to R169, R176). -/

namespace Sys2Proof.Machine

/-- `SEND_A` (41_transmit_scheduler.md rules R161 and R169): the word is latched and the send begins;
its operations follow, one a step. -/
def execSendA (hc : HouseCode) (addr cmd data : Byte) (s : State) :
    Host.Outcome State Fault Refusal :=
  .next (s.startSend .formatA hc addr cmd data)

/-- `SEND_B` (41_transmit_scheduler.md rules R161 and R176). In a build without FORMAT-B it raises
`ParseError` (30_encoding.md rule R117). -/
def execSendB (hc : HouseCode) (addr cmd data : Byte) (s : State) :
    Host.Outcome State Fault Refusal :=
  if s.params.formatBEnabled then .next (s.startSend .formatB hc addr cmd data)
  else raiseParseError s

/-- Step `TX_BEGIN` (41_transmit_scheduler.md rule R162). -/
def txBegin (s : State) : State := s.rlBegin.goTo .txOn s.command.seq.rep 0

/-- Step `TX_ON` (41_transmit_scheduler.md rule R163). -/
def txOn (s : State) : Host.Outcome State Fault Refusal :=
  match s.currentBit with
  | some b =>
    .next ((s.rlKey true (onDuration b)).goTo .txOff s.command.seq.rep s.command.seq.idx)
  | none => .fault .frameIndexOutOfRange

/-- Where `SEQ` goes after an off-pulse (41_transmit_scheduler.md rule R164). -/
def afterOffPulse (s : State) (seq : Seq) : State :=
  if seq.idx + 1 < s.frame.length then s.goTo .txOn seq.rep (seq.idx + 1)
  else s.goTo .txEnd seq.rep seq.idx

/-- Step `TX_OFF` (41_transmit_scheduler.md rule R164). -/
def txOff (s : State) : Host.Outcome State Fault Refusal :=
  match s.currentBit with
  | some b => .next (afterOffPulse (s.rlKey false (offDuration b)) s.command.seq)
  | none => .fault .frameIndexOutOfRange

/-- Step `TX_END` (41_transmit_scheduler.md rule R165). -/
def txEnd (s : State) : State := s.rlEnd.goTo .txDelay s.command.seq.rep 0

/-- Step `TX_DELAY`: the wait, then the repetition decision
(41_transmit_scheduler.md rules R166 and R167). -/
def txDelay (s : State) : State :=
  if s.command.seq.rep < 2 then
    (s.delayUs repeatDelayUs).goTo .txBegin (s.command.seq.rep + 1) 0
  else (s.delayUs repeatDelayUs).goTo .txReact 2 0

/-- Step `TX_REACT`, the last step of a send (41_transmit_scheduler.md rule R168). -/
def txReact (s : State) : State := s.rlReactivate.finish

end Sys2Proof.Machine
end

