-- ==== Sys2Proof/Machine/Dispatch.lean ====
section
/-! DEFINITION. One arm per instruction. -/

namespace Sys2Proof.Machine

def exec (i : Instr) (s : State) : Host.Outcome State Fault Refusal :=
  match i with
  | .sendA hc addr cmd data => Sys2Proof.Machine.execSendA hc addr cmd data s
  | .sendB hc addr cmd data => Sys2Proof.Machine.execSendB hc addr cmd data s
  | .setGain val => Sys2Proof.Machine.execSetGain val s
  | .setDrssi val => Sys2Proof.Machine.execSetDrssi val s
  | .setDebug val => Sys2Proof.Machine.execSetDebug val s

end Sys2Proof.Machine
end

