-- ==== Sys2Proof/Machine/Agents.lean ====
section
/-! DEFINITION. The turns: what the agent that moves next does (00_scope.md rule R6). A turn of an
agent that has no enabled step changes nothing (log 1). -/

namespace Sys2Proof.Machine

/-- The accept step on a word: decoded and executed, or `ParseError`
(41_transmit_scheduler.md rule R161). -/
def accept (w : CommandWord) (s : State) : Host.Outcome State Fault Refusal :=
  match decode s.params w with
  | .ok i => exec i s
  | .error _ => raiseParseError s

/-- The word leaves the command port as it is accepted, so it is accepted at most once
(41_transmit_scheduler.md rule R161, 20_memory.md rule R76; log 7). -/
def State.takeWord (s : State) : State := { s with port := none }

/-- The idle Command agent's turn: accept the presented word, if the step is enabled and a word is
presented (41_transmit_scheduler.md rule R161). -/
def acceptTurn (s : State) : Host.Outcome State Fault Refusal :=
  if acceptEnabled s then
    match s.port with
    | some w => accept w s.takeWord
    | none => .next s
  else .next s

/-- The Command agent's turn: the one step that `SEQ` names (41_transmit_scheduler.md rules R161 to
R168, 42_tuning_and_debug.md rule R182). No step of it is enabled before init
(10_state.md rule R36; log 10). -/
def commandTurn (s : State) : Host.Outcome State Fault Refusal :=
  if s.capture.initDone then
    match s.command.seq.st with
    | .idle => acceptTurn s
    | .txBegin => .next (txBegin s)
    | .txOn => txOn s
    | .txOff => txOff s
    | .txEnd => .next (txEnd s)
    | .txDelay => .next (txDelay s)
    | .txReact => .next (txReact s)
    | .tune => .next (tune s)
  else .next s

/-- The host presents a word; what it presented before is no longer presented
(20_memory.md rule R76; log 7). -/
def present (w : CommandWord) (s : State) : State := { s with port := some w }

/-- The host stops presenting a word (log 7). -/
def withdraw (s : State) : State := { s with port := none }

/-- One turn. -/
def takeTurn (m : Config.Move) (s : State) : Host.Outcome State Fault Refusal :=
  match m with
  | .command => commandTurn s
  | .capture => .next (captureTurn s)
  | .tick => .next (tick s)
  | .edge => .next (edge s)
  | .present w => .next (present w s)
  | .withdraw => .next (withdraw s)
  | .cfgRead n => .next (cfgReadTurn n s)
  | .cfgWrite n v => .next (cfgWriteTurn n v s)

/-- The turn to be taken: the schedule's next, or a free choice when it names none (logs 1, 2). -/
def nextMove (s : State) : Config.Move :=
  match s.schedule with
  | m :: _ => m
  | [] => Config.freeMove s.turns

/-- The state once that turn has been read off the schedule (logs 1, 2). -/
def State.dropMove (s : State) : State :=
  match s.schedule with
  | _ :: ms => { s with schedule := ms }
  | [] => { s with turns := s.turns + 1 }

/-- The turns of a list in order, up to the first that stops. -/
def runMoves : List Config.Move → State → Host.Outcome State Fault Refusal
  | [], s => .next s
  | m :: ms, s =>
    match takeTurn m s with
    | .next t => runMoves ms t
    | .fault r => .fault r
    | .refused r => .refused r

/-- What `withFetchWord` needs besides the word: the block past its init step and the Command agent
idle, so that it accepts (log 3). -/
def readyToAccept (s : State) : State :=
  ((if s.capture.initDone then s else init s).setBusy false).goTo .idle 0 0

end Sys2Proof.Machine
end

