-- ==== Sys2Proof/Machine/Step.lean ====
section
/-! DEFINITION. One step of the block: the agent that moves next takes its turn. -/

namespace Sys2Proof.Machine

/-- One step: the next turn of the schedule, or a freely chosen one. -/
def step (s : State) : Host.Outcome State Fault Refusal := takeTurn (nextMove s) s.dropMove

/-- `s` with a word on the command port and the next turn the Command agent's, the block past init
and idle, so that the very next step accepts exactly that word (log 3). -/
def State.withFetchWord (s : State) (nbits w : Nat) : State :=
  { present (tableWord nbits w) (readyToAccept s) with schedule := .command :: s.schedule }

end Sys2Proof.Machine
end

