-- ==== Sys2Proof/Machine/Text.lean ====
section
/-! DEFINITION. The text commands, the block's assembler syntax (30_encoding.md rules R110 to R114).
The spec fixes no lexical grammar (92_eei_decisions.md D31), so a line enters as its name and its
argument tokens, each as the values of its digits (log 13). -/

namespace Sys2Proof.Machine

/-- The command named by a line's first token (30_encoding.md rule R110). -/
inductive TextName where
  | sendA
  | sendB
  | setGain
  | setDrssi
  | setDebug
  /-- Any other name. -/
  | unknown
deriving DecidableEq, Repr

/-- The radix the arguments of a command are written in (30_encoding.md rule R111). -/
def TextName.radix : TextName → Nat
  | .sendA => 16
  | .sendB => 16
  | .setGain => 10
  | .setDrssi => 10
  | .setDebug => 16
  | .unknown => 16

/-- The number a token's digits write, first digit first; none for a malformed token: no digit, or one
that is no digit of the radix (30_encoding.md rule R111). -/
def readDigits (radix : Nat) (ds : List Nat) : Option Nat :=
  if ds.isEmpty || ds.any (radix ≤ ·) then none
  else some (ds.foldl (fun n d => n * radix + d) 0)

/-- A line: its name and the numbers of its argument tokens in order, `none` for a malformed token. -/
structure TextLine where
  name : TextName
  args : List (Option Nat)
deriving DecidableEq, Repr

/-- The line of a name and its tokens, each read in the radix of the command
(30_encoding.md rule R111). -/
def readLine (name : TextName) (tokens : List (List Nat)) : TextLine :=
  { name := name, args := tokens.map (readDigits name.radix) }

/-- An argument that must fit 8 bits (30_encoding.md rule R111). -/
def byteArg (n : Nat) : Option Byte := if n < 256 then some (BitVec.ofNat 8 n) else none

/-- A house code must fit 16 bits (30_encoding.md rule R111). -/
def houseArg (n : Nat) : Option HouseCode := if n < 65536 then some (BitVec.ofNat 16 n) else none

/-- A send line has 3 or 4 argument tokens; a missing fourth means data `0x00`
(30_encoding.md rules R112 and R113). -/
def assembleSend (op : Byte) : List (Option Nat) → Option CommandWord
  | [some h, some a, some c] => do
    return formatS op (← houseArg h) (← byteArg a) (← byteArg c) 0x00
  | [some h, some a, some c, some d] => do
    return formatS op (← houseArg h) (← byteArg a) (← byteArg c) (← byteArg d)
  | _ => none

/-- A set line has exactly one argument token (30_encoding.md rules R112 and R113). -/
def assembleSet (op : Byte) : List (Option Nat) → Option CommandWord
  | [some v] => do return formatV op (← byteArg v)
  | _ => none

/-- The command word of a line that parses; none for a line that does not
(30_encoding.md rule R113). -/
def assemble (l : TextLine) : Option CommandWord :=
  match l.name with
  | .sendA => assembleSend opSendA l.args
  | .sendB => assembleSend opSendB l.args
  | .setGain => assembleSet opSetGain l.args
  | .setDrssi => assembleSet opSetDrssi l.args
  | .setDebug => assembleSet opSetDebug l.args
  | .unknown => none

/-- A host submits a line: a word is presented, or the parser itself returns parse-error and the
block sees nothing (30_encoding.md rule R113, 60_exceptions.md rule R222). -/
def submitLine (l : TextLine) (s : State) : State × Option ResultCode :=
  match assemble l with
  | some w => (present w s, none)
  | none => (s, some .parseError)

end Sys2Proof.Machine
end

