-- ==== Sys2Proof/Machine/Prescaler.lean ====
section
/-! DEFINITION. The build-time choice of the prescaler and the two conversions of the Timing Base
(43_timing_base.md rules R201 to R209), all on natural numbers at full width. -/

namespace Sys2Proof.Machine

/-- `MAX_PULSE_US`: the longest supported pulse (00_scope.md rule R8). -/
def maxPulseUs : Nat := 1500

/-- `COUNTER_MAX`: the counter's maximum (00_scope.md rule R8). -/
def counterMax : Nat := 255

/-- Microseconds to ticks with prescaler `P` (43_timing_base.md rule R205). -/
def usToTicksWith (p : Config.Params) (P us : Nat) : Nat := us * p.fClkHz / (P * 1000000)

/-- `P` fits: the longest supported pulse is strictly below the counter's maximum
(43_timing_base.md rule R202). -/
def fits (p : Config.Params) (P : Nat) : Bool := usToTicksWith p P maxPulseUs < counterMax

/-- `PRESCALER`: the first candidate that fits, none when the build fails
(43_timing_base.md rules R203 and R204). -/
def prescaler? (p : Config.Params) : Option Nat := p.prescalerCandidates.find? (fits p)

/-- `usToTicks` of a build with prescaler `P` (43_timing_base.md rule R205). The result is not
reduced to 8 bits. -/
def usToTicks (p : Config.Params) (us : Nat) : Option Nat :=
  (prescaler? p).map fun P => usToTicksWith p P us

/-- `ticksToUs` with prescaler `P` (43_timing_base.md rule R206). -/
def ticksToUsWith (p : Config.Params) (P t : Nat) : Nat := t * 1000000 * P / p.fClkHz

/-- `ticksToUs` of a build (43_timing_base.md rule R206). -/
def ticksToUs (p : Config.Params) (t : Nat) : Option Nat :=
  (prescaler? p).map fun P => ticksToUsWith p P t

/-- The number of ticks from snapshot `t1` to snapshot `t2`, when fewer than 256 passed between them
(43_timing_base.md rule R209). -/
def elapsedTicks (t1 t2 : Byte) : Byte := t2 - t1

/-- The parameters have the types of 00_scope.md rule R9 (positive clock frequency, non-empty strictly
increasing list of positive candidates) and some candidate fits: `WellFormedBuild` of
70_reset_and_hazards.md rule R274. Otherwise "build fails" (43_timing_base.md rule R204). -/
def wellFormedBuild (p : Config.Params) : Bool :=
  0 < p.fClkHz && !p.prescalerCandidates.isEmpty
    && p.prescalerCandidates.all (0 < ·)
    && decide (p.prescalerCandidates.Pairwise (· < ·))
    && (prescaler? p).isSome

end Sys2Proof.Machine
end

