-- ==== Sys2Proof/Machine/Launch.lean ====
section
/-! DEFINITION. Launching a block of a given build (70_reset_and_hazards.md rules R270 and R273). -/

namespace Sys2Proof.Machine

/-- The reset state of a build, for any choice of the values 10_state.md rule R41 leaves open; none
when the build fails: "a model ... refuses to be instantiated otherwise"
(43_timing_base.md rule R204). -/
def State.launch (p : Config.Params) (v : LaunchValues) : Option State :=
  if wellFormedBuild p then some (State.resetWith p v) else none

end Sys2Proof.Machine
end

