-- ==== Sys2Proof/Safety.lean ====
section
/-! DEFINITION. What claims about the block assume and what they call a safe run: the launch premises
of 70_reset_and_hazards.md rule R274, quiescence, the invariants of 10_state.md and
41_transmit_scheduler.md rule R171, and the eager schedule of 60_exceptions.md rule R245.
`RadioLinkObeys` and `NoForeignDescriptorWrite` hold by construction: no turn makes an operation fail
or writes the descriptor except `RL.setBGD` (logs 17 and 18). -/

namespace Sys2Proof.Machine

/-- `CleanLaunch`: a reset state of a build that does not fail, whatever the open values. -/
def CleanLaunch (s : State) : Prop := ∃ p v, State.launch p v = some s

/-- `NoTransactionOpen`. -/
abbrev NoTransactionOpen (s : State) : Prop := s.radio.isOpen = false

/-- `WellFormedBuild`. -/
abbrev WellFormedBuild (s : State) : Prop := wellFormedBuild s.params = true

/-- `DecoderReturns`, at the point a finite run is observed: no callback is still running. -/
abbrev DecoderReturns (s : State) : Prop := s.capture.inIrq = false

/-- A proper end of a run (70_reset_and_hazards.md rule R275). -/
abbrev Quiescent (s : State) : Prop :=
  s.command.busy = false ∧ s.capture.edgePend = false ∧ s.capture.cmpPend = false
    ∧ s.capture.inIrq = false ∧ s.port = none

/-- The sequencer is between `RL.begin()` and its `RL.end()`. -/
def St.inTransaction : St → Bool
  | .txOn => true
  | .txOff => true
  | .txEnd => true
  | .idle => false
  | .txBegin => false
  | .txDelay => false
  | .txReact => false
  | .tune => false

/-- The sequencer is in a send. -/
def St.inSend : St → Bool
  | .txBegin => true
  | .txOn => true
  | .txOff => true
  | .txEnd => true
  | .txDelay => true
  | .txReact => true
  | .idle => false
  | .tune => false

/-- `SEQ`, `BUSY`, `KIND` and `RL.open` agree (10_state.md rules R24 and R25,
41_transmit_scheduler.md rules R161 to R172). -/
abbrev SeqCoherent (s : State) : Prop :=
  (s.command.busy = true ↔ s.command.seq.st ≠ .idle)
    ∧ s.command.seq.rep ≤ 2
    ∧ (s.command.seq.st = .txOn ∨ s.command.seq.st = .txOff ∨ s.command.seq.st = .txEnd →
        s.command.seq.idx < s.frame.length)
    ∧ (s.command.seq.st.inTransaction = false → s.command.seq.idx = 0)
    ∧ (s.command.seq.st = .idle ∨ s.command.seq.st = .tune → s.command.seq.rep = 0)
    ∧ (s.command.seq.st.inSend = true → s.command.kind = .send)
    ∧ (s.command.seq.st = .tune → s.command.kind ≠ .send)
    ∧ s.radio.isOpen = s.command.seq.st.inTransaction

/-- The operation is `RL.key`. -/
def TxOp.isKey : TxOp → Bool
  | .rlKey _ _ => true
  | .rlBegin => false
  | .rlEnd => false
  | .rlReactivate => false
  | .rlSetBGD _ _ _ => false
  | .delayUs _ => false

/-- Reads a transmit trace from left to right with the transaction open or not: the new openness, or
none where an element is not allowed there (41_transmit_scheduler.md rule R171 items 1 to 3). -/
def traceOpen : Bool → List TxOp → Option Bool
  | o, [] => some o
  | false, .rlBegin :: ops => traceOpen true ops
  | true, .rlEnd :: ops => traceOpen false ops
  | true, .rlKey _ _ :: ops => traceOpen true ops
  | false, .rlReactivate :: ops => traceOpen false ops
  | false, .rlSetBGD _ _ _ :: ops => traceOpen false ops
  | false, .delayUs _ :: ops => traceOpen false ops
  | _, _ :: _ => none

/-- The transmit trace obeys 41_transmit_scheduler.md rule R171 items 1 to 3, and `RL.open` is where it
ends. -/
abbrev TraceBracketed (s : State) : Prop := traceOpen false s.txTrace = some s.radio.isOpen

/-- Before the init step nothing has happened and nothing can be raised; after it `DEC.onInit()` is the
first decoder event and the only one of its kind (10_state.md rule R36, 20_memory.md rule R72). -/
abbrev InitFirst (s : State) : Prop :=
  (s.capture.initDone = false →
    s.rxTrace = [] ∧ s.txTrace = [] ∧ s.results = [] ∧ s.command.busy = false
      ∧ s.command.seq.st = .idle ∧ s.config.edgeIe = false ∧ s.config.cmpIe = false
      ∧ s.capture.edgePend = false ∧ s.capture.cmpPend = false ∧ s.capture.inIrq = false)
    ∧ (s.capture.initDone = true →
      s.rxTrace.head? = some .onInit ∧ s.rxTrace.count .onInit = 1)

/-- What a build hard-wires (10_state.md rules R28 and R35). -/
abbrev BuildHardWired (s : State) : Prop :=
  (s.params.debugBuild = false → s.command.debug = 0)
    ∧ (s.params.mirrorEdge = false → s.capture.statusInd = false)

/-- The reachable-state invariant: every part above. -/
abbrev State.Inv (s : State) : Prop :=
  SeqCoherent s ∧ TraceBracketed s ∧ InitFirst s ∧ BuildHardWired s

/-! ### Turns by kind -/

/-- A configuration access (20_memory.md rule R66). -/
def isConfigMove : Config.Move → Bool
  | .cfgRead _ => true
  | .cfgWrite _ _ => true
  | .command => false
  | .capture => false
  | .tick => false
  | .edge => false
  | .present _ => false
  | .withdraw => false

/-- A turn of the mainloop context's transmit side: the Command agent, or the host at the command
port (60_exceptions.md rule R251). -/
def isCommandSide : Config.Move → Bool
  | .command => true
  | .present _ => true
  | .withdraw => true
  | .cfgRead _ => false
  | .cfgWrite _ _ => false
  | .capture => false
  | .tick => false
  | .edge => false

/-! ### The eager schedule (60_exceptions.md rule R245) -/

/-- The event that the hardware raises when `m` is taken in `s`, as the decoder should hear of it:
an enabled transition with the counter and the new level, an enabled compare match. -/
def raisedEvents (m : Config.Move) (s : State) : List DecEvent :=
  match m with
  | .edge => if s.config.edgeIe then [.onEdge s.tcnt (!s.rx)] else []
  | .tick => if s.config.cmpIe && s.tcnt + 1 == s.config.ocr then [.onTimeout] else []
  | .command => []
  | .capture => []
  | .present _ => []
  | .withdraw => []
  | .cfgRead _ => []
  | .cfgWrite _ _ => []

/-- The events raised along a list of turns, in order. -/
def raisedAlong : List Config.Move → State → List DecEvent
  | [], _ => []
  | m :: ms, s =>
    match takeTurn m s with
    | .next t => raisedEvents m s ++ raisedAlong ms t
    | .fault _ => raisedEvents m s
    | .refused _ => raisedEvents m s

/-- Where an eager run stands: nothing outstanding, the service step due, or in the callback. -/
inductive EagerPhase where
  | clear
  | service
  | callback
deriving DecidableEq, Repr

/-- A list of turns is eager from a state: each turn that raises an event is followed at once by the
Capture agent's service turn, then by configuration accesses only, then by the Capture agent's return
turn (60_exceptions.md rule R245). -/
def eager : EagerPhase → List Config.Move → State → Bool
  | ph, [], _ => ph == .clear
  | ph, m :: ms, s =>
    match takeTurn m s with
    | .next t =>
      match ph with
      | .clear => eager (if raisedEvents m s = [] then .clear else .service) ms t
      | .service => m == .capture && eager .callback ms t
      | .callback =>
        if isConfigMove m then eager .callback ms t else m == .capture && eager .clear ms t
    | .fault _ => false
    | .refused _ => false

end Sys2Proof.Machine
end

