-- ==== Sys2Proof/Certificates/Slice0/Obligations.lean ====
section
/-! DEFINITION. The statements about the block that the provers are asked to prove. Each docstring
names the rule or section of spec/ that it formalises. -/

open Sys2Proof Sys2Proof.Machine

/-! ## Encoding -/

/-- 30_encoding.md section 1: encoding a command of the build and decoding the word gives the command
back, with every operand at every value. -/
def Obligations.DecodeOfEncodeIsTheInstruction : Prop :=
  ∀ (p : Config.Params) (i : Instr), i.wellFormed p = true → decode p (encode i) = .ok i

/-- 30_encoding.md section 1: a word that decodes is the encoding of what it decodes to, and that is a
command of the build. No bit of a valid word is dropped, and no two words mean the same. -/
def Obligations.EncodeOfDecodeIsTheWord : Prop :=
  ∀ (p : Config.Params) (w : CommandWord) (i : Instr),
    decode p w = .ok i → encode i = w ∧ i.wellFormed p = true

/-- Rules R94, R116, R117 and R221, with the word read as a number: the opcode is the word divided by
2^40, and every other field is the quotient and remainder its bit positions say; the reserved, unbuilt
and reserved-bit words are invalid, and an invalid word is executed as `ParseError`: a result and no
other effect. -/
def Obligations.DecodeReadsTheFieldsOfTheWord : Prop :=
  ∀ (p : Config.Params) (w : CommandWord),
    (w.toNat / 2 ^ 40 = 1 →
      decode p w = .ok (.sendA (BitVec.ofNat 16 (w.toNat / 2 ^ 24)) (BitVec.ofNat 8 (w.toNat / 2 ^ 16))
        (BitVec.ofNat 8 (w.toNat / 2 ^ 8)) (BitVec.ofNat 8 w.toNat)))
    ∧ (w.toNat / 2 ^ 40 = 2 → p.formatBEnabled = true →
      decode p w = .ok (.sendB (BitVec.ofNat 16 (w.toNat / 2 ^ 24)) (BitVec.ofNat 8 (w.toNat / 2 ^ 16))
        (BitVec.ofNat 8 (w.toNat / 2 ^ 8)) (BitVec.ofNat 8 w.toNat)))
    ∧ (w.toNat / 2 ^ 40 = 2 → p.formatBEnabled = false → decode p w = .error .formatBNotBuilt)
    ∧ (3 ≤ w.toNat / 2 ^ 40 → w.toNat / 2 ^ 40 ≤ 5 → w.toNat / 2 ^ 8 % 2 ^ 32 ≠ 0 →
      decode p w = .error .reservedBits)
    ∧ (w.toNat / 2 ^ 40 = 3 → w.toNat / 2 ^ 8 % 2 ^ 32 = 0 →
      decode p w = .ok (.setGain (BitVec.ofNat 8 w.toNat)))
    ∧ (w.toNat / 2 ^ 40 = 4 → w.toNat / 2 ^ 8 % 2 ^ 32 = 0 →
      decode p w = .ok (.setDrssi (BitVec.ofNat 8 w.toNat)))
    ∧ (w.toNat / 2 ^ 40 = 5 → w.toNat / 2 ^ 8 % 2 ^ 32 = 0 → p.debugBuild = true →
      decode p w = .ok (.setDebug (BitVec.ofNat 8 w.toNat)))
    ∧ (w.toNat / 2 ^ 40 = 5 → w.toNat / 2 ^ 8 % 2 ^ 32 = 0 → p.debugBuild = false →
      decode p w = .error .debugNotBuilt)
    ∧ (w.toNat / 2 ^ 40 = 0 ∨ 6 ≤ w.toNat / 2 ^ 40 → decode p w = .error .reservedOpcode)
    ∧ ∀ (s : State) (e : DecodeError), s.params = p → decode p w = .error e →
      accept w s = .next { s with results := s.results ++ [.parseError] }

/-- 30_encoding.md section 1 and 95_test_vectors.md section 2.5: words written out by hand from the
encoding tables, one for each command. -/
def Obligations.HandWrittenWordsDecode : Prop :=
  decode Config.Params.reference 0x011234052607 = .ok (.sendA 0x1234 0x05 0x26 0x07)
    ∧ decode Config.Params.reference 0x021234050600 = .ok (.sendB 0x1234 0x05 0x06 0x00)
    ∧ decode Config.Params.reference 0x0300000000FF = .ok (.setGain 0xFF)
    ∧ decode Config.Params.reference 0x040000000005 = .ok (.setDrssi 0x05)
    ∧ decode Config.Params.reference 0x0500000000A5 = .ok (.setDebug 0xA5)

/-- 30_encoding.md section 5 and 60_exceptions.md section 1: at the accept step a word whose opcode is
reserved, whose command is not built or whose reserved bits are not zero gives the result `PARSE_ERROR`
and nothing else; every other word is executed as the instruction it decodes to, and the step adds no
result or the result `OK`. That the word leaves the port (log 7) and that the step is the next turn of
the schedule (log 1) are the model's. -/
def Obligations.IllegalWordsAreExactlyTheParseErrors : Prop :=
  ∀ (s : State) (w : CommandWord),
    acceptEnabled s = true → s.port = some w → nextMove s = .command →
    (opField w = 0 ∨ 6 ≤ (opField w).toNat
        ∨ (opField w = 2 ∧ s.params.formatBEnabled = false)
        ∨ (opField w = 5 ∧ s.params.debugBuild = false)
        ∨ (3 ≤ (opField w).toNat ∧ (opField w).toNat ≤ 5 ∧ zeroField w ≠ 0) →
      step s = .next { s.dropMove with port := none, results := s.results ++ [.parseError] })
    ∧ (¬(opField w = 0 ∨ 6 ≤ (opField w).toNat
        ∨ (opField w = 2 ∧ s.params.formatBEnabled = false)
        ∨ (opField w = 5 ∧ s.params.debugBuild = false)
        ∨ (3 ≤ (opField w).toNat ∧ (opField w).toNat ≤ 5 ∧ zeroField w ≠ 0)) →
      ∃ i t, decode s.params w = .ok i ∧ encode i = w
        ∧ step s = exec i { s.dropMove with port := none }
        ∧ step s = .next t ∧ (t.results = s.results ∨ t.results = s.results ++ [.ok]))

/-- 30_encoding.md section 4: a line of three or four in-range tokens, or one in-range token for a set
command, assembles to the word of the command it names, a missing data token counting as `0x00`. -/
def Obligations.TextLinesAssembleToTheirCommands : Prop :=
  ∀ (h : HouseCode) (a c d : Byte),
    assemble ⟨.sendA, [some h.toNat, some a.toNat, some c.toNat]⟩ = some (encode (.sendA h a c 0))
    ∧ assemble ⟨.sendA, [some h.toNat, some a.toNat, some c.toNat, some d.toNat]⟩
        = some (encode (.sendA h a c d))
    ∧ assemble ⟨.sendB, [some h.toNat, some a.toNat, some c.toNat]⟩ = some (encode (.sendB h a c 0))
    ∧ assemble ⟨.sendB, [some h.toNat, some a.toNat, some c.toNat, some d.toNat]⟩
        = some (encode (.sendB h a c d))
    ∧ assemble ⟨.setGain, [some a.toNat]⟩ = some (encode (.setGain a))
    ∧ assemble ⟨.setDrssi, [some a.toNat]⟩ = some (encode (.setDrssi a))
    ∧ assemble ⟨.setDebug, [some a.toNat]⟩ = some (encode (.setDebug a))

/-- 30_encoding.md section 4: every token of a line is read in the radix of its command, hexadecimal but
for `set-gain` and `set-drssi`. A token of one digit is worth that digit, and a digit put after a token
multiplies it by the radix and is added, so leading zeros change nothing; the digits of a number read
back as it; a token with no digit, or with one outside the radix, is malformed, and a line with one is
answered parse-error. That a token comes as its digits is the model's (log 13). -/
def Obligations.TokensReadInTheRadixOfTheCommand : Prop :=
  (∀ (name : TextName) (tokens : List (List Nat)), readLine name tokens
      = ⟨name, tokens.map (readDigits (if name = .setGain ∨ name = .setDrssi then 10 else 16))⟩)
    ∧ (∀ (radix d : Nat), d < radix → readDigits radix [d] = some d)
    ∧ (∀ (radix n : Nat), 2 ≤ radix → 0 < n → readDigits radix (Nat.digits radix n).reverse = some n)
    ∧ (∀ (radix : Nat) (ds : List Nat) (d : Nat), d < radix → ds ≠ [] →
        readDigits radix (ds ++ [d]) = (readDigits radix ds).map (fun n => n * radix + d))
    ∧ (∀ (radix : Nat) (ds : List Nat),
        readDigits radix ds = none ↔ ds = [] ∨ ∃ d ∈ ds, radix ≤ d)
    ∧ (∀ (name : TextName) (tokens : List (List Nat)) (s : State),
        (∃ ds ∈ tokens, ∃ d ∈ ds,
          (if name = .setGain ∨ name = .setDrssi then 10 else 16) ≤ d) →
        submitLine (readLine name tokens) s = (s, some .parseError))

/-- 30_encoding.md section 4 and 60_exceptions.md section 1: a line with a malformed token, an argument
out of range, a wrong number of tokens or an unknown name reaches the block as nothing at all. -/
def Obligations.MalformedTextLinesReachNothing : Prop :=
  ∀ (l : TextLine) (s : State),
    (none ∈ l.args ∨ l.name = .unknown
      ∨ ((l.name = .sendA ∨ l.name = .sendB) ∧ l.args.length ≠ 3 ∧ l.args.length ≠ 4)
      ∨ ((l.name = .setGain ∨ l.name = .setDrssi ∨ l.name = .setDebug) ∧ l.args.length ≠ 1)
      ∨ (∃ n, l.args.head? = some (some n) ∧ 65536 ≤ n)
      ∨ ((l.name = .setGain ∨ l.name = .setDrssi ∨ l.name = .setDebug)
          ∧ ∃ n, l.args.head? = some (some n) ∧ 256 ≤ n)
      ∨ (∃ n, some n ∈ l.args.tail ∧ 256 ≤ n)) →
    submitLine l s = (s, some .parseError)

/-! ## The Frame Encoder -/

/-- Rule R131 (with R134 and R135): the checksum is the sum modulo 256, which equals adding the terms
one at a time modulo 256; the unreduced sum never exceeds 1287; absent data does not count. -/
def Obligations.ChecksumIsTheWrappingSum : Prop :=
  ∀ (v : Variant) (hc : HouseCode) (addr cmd data : Byte),
    (checksum v hc addr cmd data).toNat
      = ((if v = .formatA then 6 else 12) + hc.toNat / 256 + hc.toNat % 256 + addr.toNat + cmd.toNat
          + (if cmd &&& 0x20 ≠ 0 then data.toNat else 0)) % 256
    ∧ checksum v hc addr cmd data
      = (if v = .formatA then 6 else 12) + hc.extractLsb' 8 8 + hc.extractLsb' 0 8 + addr + cmd
          + (if cmd &&& 0x20 ≠ 0 then data else 0)
    ∧ (if v = .formatA then 6 else 12) + hc.toNat / 256 + hc.toNat % 256 + addr.toNat + cmd.toNat
          + (if cmd &&& 0x20 ≠ 0 then data.toNat else 0) ≤ 1287
    ∧ checksumBase .formatA = 0x06 ∧ checksumBase .formatB = 0x0c
    ∧ hasData cmd = cmd.getLsbD 5 ∧ (hasData cmd = true ↔ cmd &&& 0x20 ≠ 0)

/-- 40_frame_encoder.md section 5 item 1 and 30_encoding.md section 3: with `CMD[5] = 0` the value of
`DATA` affects neither the checksum nor the frame nor the trace of a send. -/
def Obligations.AbsentDataHasNoEffect : Prop :=
  ∀ (v : Variant) (hc : HouseCode) (addr cmd data data' : Byte), hasData cmd = false →
    checksum v hc addr cmd data = checksum v hc addr cmd data'
    ∧ frameBits v hc addr cmd data = frameBits v hc addr cmd data'
    ∧ sendTrace v hc addr cmd data = sendTrace v hc addr cmd data'

/-- Rule R132: the parity is the exclusive or of the 8 bits, is 1 exactly when the byte has an odd
number of ones, and distributes over exclusive or; the corner cases of the rule. -/
def Obligations.ParityMakesTheOnesEven : Prop :=
  (∀ b : Byte, parity b = (b.getLsbD 7 ^^ b.getLsbD 6 ^^ b.getLsbD 5 ^^ b.getLsbD 4 ^^ b.getLsbD 3
      ^^ b.getLsbD 2 ^^ b.getLsbD 1 ^^ b.getLsbD 0)
    ∧ (parity b = true ↔ (msbFirst b).count true % 2 = 1)
    ∧ (msbFirst b ++ [parity b]).count true % 2 = 0)
  ∧ (∀ a b : Byte, parity (a ^^^ b) = (parity a ^^ parity b))
  ∧ parity 0x00 = false ∧ parity 0xFF = false ∧ parity 0x01 = true ∧ parity 0x80 = true
  ∧ parity 0xFE = true ∧ parity 0x34 = true

/-- Rule R133: the byte field is the 8 bits, most significant first, then the parity bit. -/
def Obligations.ByteFieldIsMsbFirstThenParity : Prop :=
  (∀ b : Byte, field9 b = [b.getLsbD 7, b.getLsbD 6, b.getLsbD 5, b.getLsbD 4, b.getLsbD 3,
      b.getLsbD 2, b.getLsbD 1, b.getLsbD 0, parity b]
    ∧ field9 b = msbFirst (b ++ BitVec.ofBool (parity b)))
  ∧ field9 0x00 = [false, false, false, false, false, false, false, false, false]
  ∧ field9 0xFF = [true, true, true, true, true, true, true, true, false]
  ∧ field9 0x80 = [true, false, false, false, false, false, false, false, true]
  ∧ field9 0x12 = [false, false, false, true, false, false, true, false, false]

/-- Rules R100, R101, R102, R103, R136 and R137: sync of twelve zeros and a one, the byte fields in
order, one stop bit; the byte list, whose last byte is the checksum of the others; 59 bits without data
and 68 with; the two variants differ only in the last ten
bits, those of the checksum field and the stop bit, and agree in the last. -/
def Obligations.FrameIsSyncFieldsStop : Prop :=
  ∀ (v : Variant) (hc : HouseCode) (addr cmd data : Byte),
    frameBits v hc addr cmd data
      = [false, false, false, false, false, false, false, false, false, false, false, false, true]
        ++ (field9 (hc.extractLsb' 8 8) ++ field9 (hc.extractLsb' 0 8) ++ field9 addr ++ field9 cmd
          ++ (if cmd &&& 0x20 ≠ 0 then field9 data else [])
          ++ field9 (checksum v hc addr cmd data)) ++ [false]
    ∧ fieldBytes v hc addr cmd data
      = [hc.extractLsb' 8 8, hc.extractLsb' 0 8, addr, cmd]
        ++ (if cmd &&& 0x20 ≠ 0 then [data] else []) ++ [checksum v hc addr cmd data]
    ∧ (checksum v hc addr cmd data).toNat
      = ((checksumBase v).toNat
          + ((fieldBytes v hc addr cmd data).dropLast.map BitVec.toNat).sum) % 256
    ∧ (frameBits v hc addr cmd data).length = (if cmd &&& 0x20 ≠ 0 then 68 else 59)
    ∧ (frameBits .formatA hc addr cmd data).take ((frameBits v hc addr cmd data).length - 10)
      = (frameBits .formatB hc addr cmd data).take ((frameBits v hc addr cmd data).length - 10)

/-- 30_encoding.md section 3 (the bit index the spec derives in R104): which bit of which byte stands
at each index of the frame. -/
def Obligations.FrameBitAtEachIndex : Prop :=
  ∀ (v : Variant) (hc : HouseCode) (addr cmd data : Byte),
    let bs := fieldBytes v hc addr cmd data
    let f := frameBits v hc addr cmd data
    bs.length = (if hasData cmd then 6 else 5)
    ∧ f.length = 13 + 9 * bs.length + 1
    ∧ (∀ i, i < 12 → f[i]? = some false) ∧ f[12]? = some true
    ∧ (∀ k j b, bs[k]? = some b → j < 8 → f[13 + 9 * k + j]? = some (b.getLsbD (7 - j)))
    ∧ (∀ k b, bs[k]? = some b → f[13 + 9 * k + 8]? = some (parity b))
    ∧ f[13 + 9 * bs.length]? = some false

/-- Rules R138 and R139: a 1 is 750 us on and 400 us off, a 0 is 550 us on and 200 us off, the on-pulse
keyed first. -/
def Obligations.PulseDurationsAreExact : Prop :=
  emitBit true = [.rlKey true 750, .rlKey false 400]
    ∧ emitBit false = [.rlKey true 550, .rlKey false 200]

/-- 40_frame_encoder.md section 4 (R140): two operations a bit, levels alternating from 1, ending with
the stop bit's off-pulse. -/
def Obligations.PulseTrainAlternates : Prop :=
  ∀ (v : Variant) (hc : HouseCode) (addr cmd data : Byte),
    let ops := encodeAndTransmit v hc addr cmd data
    ops.length = (if hasData cmd then 136 else 118)
    ∧ (∀ i, i < ops.length → ∃ us, ops[i]? = some (.rlKey (i % 2 == 0) us)
        ∧ (us = 750 ∨ us = 400 ∨ us = 550 ∨ us = 200))
    ∧ ops.getLast? = some (.rlKey false 200)

/-- 40_frame_encoder.md section 4 and 41_transmit_scheduler.md section 6 (R142, R173): what the
durations of a send add up to. -/
def Obligations.SendDurationCountsOnesAndZeros : Prop :=
  ∀ (v : Variant) (hc : HouseCode) (addr cmd data : Byte),
    let f := frameBits v hc addr cmd data
    traceDuration (encodeAndTransmit v hc addr cmd data) = 1150 * f.count true + 750 * f.count false
    ∧ traceDuration (sendTrace v hc addr cmd data)
      = 3 * (1150 * f.count true + 750 * f.count false + 10000)

/-- 41_transmit_scheduler.md section 4 (R170, R171 item 4): the length of a send's trace, how often each
of the six operations occurs in it (`RL.setBGD` never, and no delay but the 10 ms wait), and its last
element; every transaction it opens it closes. -/
def Obligations.SendTraceCountsItsOperations : Prop :=
  ∀ (v : Variant) (hc : HouseCode) (addr cmd data : Byte),
    let tr := sendTrace v hc addr cmd data
    tr.length = 6 * (frameBits v hc addr cmd data).length + 10
    ∧ tr.count .rlBegin = 3 ∧ tr.count .rlEnd = 3 ∧ tr.count (.delayUs 10000) = 3
    ∧ tr.countP TxOp.isKey = 6 * (frameBits v hc addr cmd data).length
    ∧ (∀ bw g d, .rlSetBGD bw g d ∉ tr) ∧ (∀ us, .delayUs us ∈ tr → us = 10000)
    ∧ tr.count .rlReactivate = 1 ∧ tr.getLast? = some .rlReactivate
    ∧ traceOpen false tr = some false

/-! ## The instructions at their accept step -/

/-- 41_transmit_scheduler.md section 2 (R161): the accept step for each of the five commands and for an invalid word, and that nothing
is accepted while it is not enabled or no word is presented. It performs no Radio Link operation. That
the word leaves the port is the model's reading of "accepted at most once" (log 7). -/
def Obligations.AcceptStepLatchesTheCommand : Prop :=
  ∀ (s : State), s.command.seq.st = .idle →
    (s.capture.initDone = false ∨ s.command.busy = true ∨ s.port = none → commandTurn s = .next s)
    ∧ ∀ w, s.capture.initDone = true → s.command.busy = false → s.port = some w →
      (∀ e, decode s.params w = .error e →
        commandTurn s = .next { s with port := none, results := s.results ++ [.parseError] })
      ∧ (∀ hc addr cmd data, decode s.params w = .ok (.sendA hc addr cmd data) →
        commandTurn s = .next { s with port := none, command := { s.command with
          var := .formatA, hc := hc, addr := addr, cmd := cmd, data := data, kind := .send,
          busy := true, seq := ⟨.txBegin, 0, 0⟩ } })
      ∧ (∀ hc addr cmd data, decode s.params w = .ok (.sendB hc addr cmd data) →
        commandTurn s = .next { s with port := none, command := { s.command with
          var := .formatB, hc := hc, addr := addr, cmd := cmd, data := data, kind := .send,
          busy := true, seq := ⟨.txBegin, 0, 0⟩ } })
      ∧ (∀ g, decode s.params w = .ok (.setGain g) →
        commandTurn s = .next { s with port := none, command := { s.command with
          val := g, kind := .gain, busy := true, seq := ⟨.tune, 0, 0⟩ } })
      ∧ (∀ d, decode s.params w = .ok (.setDrssi d) →
        commandTurn s = .next { s with port := none, command := { s.command with
          val := d, kind := .drssi, busy := true, seq := ⟨.tune, 0, 0⟩ } })
      ∧ (∀ f, decode s.params w = .ok (.setDebug f) →
        commandTurn s = .next { s with
          port := none, results := s.results ++ [.ok],
          command := { s.command with debug := f } })

/-- 41_transmit_scheduler.md section 3: `SEND_A` completes its accept step in every state: the operands
are latched, `BUSY` is set and the sequencer starts. -/
def Obligations.SendABeginsASend : Prop :=
  ∀ (s : State) (hc : HouseCode) (addr cmd data : Byte),
    exec (.sendA hc addr cmd data) s = .next { s with command := { s.command with
      var := .formatA, hc := hc, addr := addr, cmd := cmd, data := data, kind := .send,
      busy := true, seq := ⟨.txBegin, 0, 0⟩ } }

/-- 41_transmit_scheduler.md section 3: `SEND_B` is `SEND_A` with `VAR = B` in a build that has it, and
`ParseError` in one that has not. -/
def Obligations.SendBBeginsASendWhenBuilt : Prop :=
  ∀ (s : State) (hc : HouseCode) (addr cmd data : Byte),
    (s.params.formatBEnabled = true →
      exec (.sendB hc addr cmd data) s = .next { s with command := { s.command with
        var := .formatB, hc := hc, addr := addr, cmd := cmd, data := data, kind := .send,
        busy := true, seq := ⟨.txBegin, 0, 0⟩ } })
    ∧ (s.params.formatBEnabled = false →
      exec (.sendB hc addr cmd data) s = .next { s with results := s.results ++ [.parseError] })

/-- 42_tuning_and_debug.md section 1: `SET_GAIN` and `SET_DRSSI` latch their value and start the `TUNE`
step. -/
def Obligations.TuningCommandsBeginATuneStep : Prop :=
  ∀ (s : State) (v : Byte),
    exec (.setGain v) s = .next { s with command := { s.command with
      val := v, kind := .gain, busy := true, seq := ⟨.tune, 0, 0⟩ } }
    ∧ exec (.setDrssi v) s = .next { s with command := { s.command with
      val := v, kind := .drssi, busy := true, seq := ⟨.tune, 0, 0⟩ } }

/-- 42_tuning_and_debug.md section 2: `SET_DEBUG` stores its value and answers `OK` in one step in a
debug build, where a reader of register 4 then sees it. In any other build it is `ParseError`
(30_encoding.md section 5), and register 4 reads zero in every state (10_state.md section 4, R28; that
the view is zero whatever the field holds is log 15). -/
def Obligations.SetDebugStoresTheFlagWhenBuilt : Prop :=
  ∀ (s : State) (v : Byte),
    (s.params.debugBuild = true →
      ∃ t, exec (.setDebug v) s = .next t
        ∧ t = { s with command := { s.command with debug := v }, results := s.results ++ [.ok] }
        ∧ cfgRead 4 t = v)
    ∧ (s.params.debugBuild = false →
      exec (.setDebug v) s = .next { s with results := s.results ++ [.parseError] }
      ∧ cfgRead 4 s = 0)

/-- The frame of the five commands (41_transmit_scheduler.md sections 2 and 3, 42_tuning_and_debug.md sections
1 and 2): what no command's accept step changes, and what each family leaves of the Command agent. -/
def Obligations.CommandsLeaveEverythingElse : Prop :=
  ∀ (i : Instr) (s t : State), exec i s = .next t →
    t.params = s.params ∧ t.tcnt = s.tcnt ∧ t.config = s.config ∧ t.capture = s.capture
    ∧ t.rx = s.rx ∧ t.radio = s.radio ∧ t.port = s.port ∧ t.cfgData = s.cfgData
    ∧ t.txTrace = s.txTrace ∧ t.rxTrace = s.rxTrace ∧ t.schedule = s.schedule ∧ t.turns = s.turns
    ∧ ((∀ v, i ≠ .setDebug v) → t.command.debug = s.command.debug)
    ∧ ((∀ hc a c d, i ≠ .sendA hc a c d) → (∀ hc a c d, i ≠ .sendB hc a c d) →
        t.command.var = s.command.var ∧ t.command.hc = s.command.hc
        ∧ t.command.addr = s.command.addr ∧ t.command.cmd = s.command.cmd
        ∧ t.command.data = s.command.data)
    ∧ ((∀ v, i ≠ .setGain v) → (∀ v, i ≠ .setDrssi v) → t.command.val = s.command.val)
    ∧ ((∃ v, i = .setDebug v) →
        t.command.kind = s.command.kind ∧ t.command.busy = s.command.busy
        ∧ t.command.seq = s.command.seq)
    ∧ ((∀ v, i ≠ .setDebug v) → i.wellFormed s.params = true → t.results = s.results)

/-- When the word on the command port decodes to an instruction and the Command agent's turn comes
while the accept step is enabled, `step` is `exec` of that instruction; around it the model takes the
turn off the schedule and the word off the port (logs 1 and 7). -/
def Obligations.StepRunsTheDecodedInstruction : Prop :=
  ∀ (s : State) (w : CommandWord) (i : Instr),
    nextMove s = .command → acceptEnabled s = true → s.port = some w → decode s.params w = .ok i →
    step s = exec i { s.dropMove with port := none }

/-! ## The sequencer -/

/-- Rules R162 to R168: each step of a send, from every state at that position past init (rule R36), with
the bit `b` at `SEQ.idx` of the latched frame. `SEQ` at the last bit and after the third wait is as
R164 and R167 give it (log 11). What the operand latches hold after the last step is left out
(10_state.md R21 leaves it open; log 14). -/
def Obligations.SequencerStepsOfASend : Prop :=
  ∀ (s : State) (rep idx : Nat), s.capture.initDone = true →
    let f := frameBits s.command.var s.command.hc s.command.addr s.command.cmd s.command.data
    (s.command.seq = ⟨.txBegin, rep, idx⟩ →
      commandTurn s = .next { s with
        radio := { s.radio with isOpen := true }, txTrace := s.txTrace ++ [.rlBegin],
        command := { s.command with seq := ⟨.txOn, rep, 0⟩ } })
    ∧ (∀ b, s.command.seq = ⟨.txOn, rep, idx⟩ → f[idx]? = some b →
      commandTurn s = .next { s with
        radio := { s.radio with level := true },
        txTrace := s.txTrace ++ [.rlKey true (if b then 750 else 550)],
        command := { s.command with seq := ⟨.txOff, rep, idx⟩ } })
    ∧ (∀ b, s.command.seq = ⟨.txOff, rep, idx⟩ → f[idx]? = some b →
      commandTurn s = .next { s with
        radio := { s.radio with level := false },
        txTrace := s.txTrace ++ [.rlKey false (if b then 400 else 200)],
        command := { s.command with
          seq := if idx + 1 < f.length then ⟨.txOn, rep, idx + 1⟩ else ⟨.txEnd, rep, idx⟩ } })
    ∧ (s.command.seq = ⟨.txEnd, rep, idx⟩ →
      commandTurn s = .next { s with
        radio := { s.radio with isOpen := false }, txTrace := s.txTrace ++ [.rlEnd],
        command := { s.command with seq := ⟨.txDelay, rep, 0⟩ } })
    ∧ (s.command.seq = ⟨.txDelay, rep, idx⟩ →
      commandTurn s = .next { s with
        txTrace := s.txTrace ++ [.delayUs 10000],
        command := { s.command with
          seq := if rep < 2 then ⟨.txBegin, rep + 1, 0⟩ else ⟨.txReact, 2, 0⟩ } })
    ∧ (s.command.seq = ⟨.txReact, rep, idx⟩ →
      ∃ t, commandTurn s = .next t
        ∧ { t with command := s.command } = { s with
          txTrace := s.txTrace ++ [.rlReactivate], results := s.results ++ [.ok] }
        ∧ t.command.busy = false ∧ t.command.seq = ⟨.idle, 0, 0⟩
        ∧ t.command.debug = s.command.debug)

/-- Rules R182 and R183: the `TUNE` step, from every state at that position past init (rule R36). What
the operand latches hold after it is left out (10_state.md R21 leaves it open; log 14). -/
def Obligations.TuneStepWritesAllThreeFieldsBack : Prop :=
  ∀ (s : State), s.capture.initDone = true → s.command.seq.st = .tune →
    let g := if s.command.kind = .gain then s.command.val else s.radio.desc.gain
    let d := if s.command.kind = .drssi then s.command.val else s.radio.desc.drssi
    ∃ t, commandTurn s = .next t
      ∧ { t with command := s.command } = { s with
        radio := { s.radio with desc := ⟨s.radio.desc.bandwidth, g, d⟩ },
        txTrace := s.txTrace ++ [.rlSetBGD s.radio.desc.bandwidth g d],
        results := s.results ++ [.ok] }
      ∧ t.command.busy = false ∧ t.command.seq = ⟨.idle, 0, 0⟩
      ∧ t.command.debug = s.command.debug

/-- 41_transmit_scheduler.md section 4 (the whole trace that R170 derives): the word of a send on the
command port of an idle block, and as many turns of the Command agent as the send has steps, give
exactly the trace of three repetitions and the reactivation, one result `OK`, and an idle block.
The operand latches afterwards are left out (10_state.md R21 leaves them open; log 14); the turns come
from the model's schedule (log 1), and the port is empty afterwards because the accept step takes the
word off it (log 7). -/
def Obligations.SendRunsToCompletion : Prop :=
  ∀ (s : State) (v : Variant) (hc : HouseCode) (addr cmd data : Byte) (rest : List Config.Move),
    acceptEnabled s = true → s.radio.isOpen = false →
    (v = .formatB → s.params.formatBEnabled = true) →
    s.port = some (encode (match v with
      | .formatA => Instr.sendA hc addr cmd data
      | .formatB => Instr.sendB hc addr cmd data)) →
    let n := 6 * (frameBits v hc addr cmd data).length + 11
    s.schedule = List.replicate n Config.Move.command ++ rest →
    ∃ t : State, Host.Core.run core n s = .next t
      ∧ t.txTrace = s.txTrace ++ sendTrace v hc addr cmd data
      ∧ t.results = s.results ++ [.ok]
      ∧ t.command.seq = ⟨.idle, 0, 0⟩ ∧ t.command.busy = false ∧ t.command.debug = s.command.debug
      ∧ t.radio = { s.radio with level := false }
      ∧ t.port = none ∧ t.schedule = rest ∧ t.rxTrace = s.rxTrace ∧ t.tcnt = s.tcnt
      ∧ t.config = s.config ∧ t.capture = s.capture ∧ t.rx = s.rx ∧ t.params = s.params

/-- 42_tuning_and_debug.md section 1 (the guarantees of R184): a tuning word on the port of an idle block
and two turns of the Command agent give one combined transaction that changes one field of the
descriptor, one result `OK`, and an idle block. The turns come from the model's schedule (log 1). -/
def Obligations.TuningChangesOneDescriptorField : Prop :=
  ∀ (s : State) (val : Byte) (rest : List Config.Move),
    acceptEnabled s = true → s.schedule = .command :: .command :: rest →
    (s.port = some (encode (.setGain val)) →
      ∃ t : State, Host.Core.run core 2 s = .next t
        ∧ t.radio = { s.radio with desc := { s.radio.desc with gain := val } }
        ∧ t.txTrace = s.txTrace ++ [.rlSetBGD s.radio.desc.bandwidth val s.radio.desc.drssi]
        ∧ t.results = s.results ++ [.ok] ∧ t.command.busy = false ∧ t.command.seq = ⟨.idle, 0, 0⟩
        ∧ t.command.debug = s.command.debug ∧ t.rxTrace = s.rxTrace ∧ t.config = s.config
        ∧ t.capture = s.capture ∧ t.tcnt = s.tcnt)
    ∧ (s.port = some (encode (.setDrssi val)) →
      ∃ t : State, Host.Core.run core 2 s = .next t
        ∧ t.radio = { s.radio with desc := { s.radio.desc with drssi := val } }
        ∧ t.txTrace = s.txTrace ++ [.rlSetBGD s.radio.desc.bandwidth s.radio.desc.gain val]
        ∧ t.results = s.results ++ [.ok] ∧ t.command.busy = false ∧ t.command.seq = ⟨.idle, 0, 0⟩
        ∧ t.command.debug = s.command.debug ∧ t.rxTrace = s.rxTrace ∧ t.config = s.config
        ∧ t.capture = s.capture ∧ t.tcnt = s.tcnt)

/-- 41_transmit_scheduler.md section 6 (R174): while `BUSY = 1` no turn but the Command agent's own
changes `SEQ`, a latch or the transmit side, and its own turns keep the latches as long as they leave
`BUSY` at 1; a command ends with its result `OK` only: nothing aborts it. What the latches hold once
`BUSY` is 0 is left out (10_state.md R21 leaves it open; log 14). -/
def Obligations.NothingAbortsACommand : Prop :=
  ∀ (s t : State) (m : Config.Move), s.command.busy = true → takeTurn m s = .next t →
    (m ≠ .command → t.command = s.command ∧ t.radio = s.radio ∧ t.txTrace = s.txTrace
      ∧ t.results = s.results)
    ∧ (t.command.busy = true →
        t.command.var = s.command.var ∧ t.command.hc = s.command.hc
        ∧ t.command.addr = s.command.addr ∧ t.command.cmd = s.command.cmd
        ∧ t.command.data = s.command.data ∧ t.command.val = s.command.val
        ∧ t.command.kind = s.command.kind)
    ∧ (SeqCoherent s → t.command.busy = false → t.results = s.results ++ [.ok])

/-- 20_memory.md section 6 (R72 item 1): a busy command answers once, `OK`, in the very step that makes
the block idle, and until then only its operations reach the transmit trace, one at most a step. -/
def Obligations.ResultFollowsTheLastOperation : Prop :=
  ∀ (s t : State), SeqCoherent s → s.command.busy = true → commandTurn s = .next t →
    (t.results = s.results ∧ t.command.busy = true
      ∨ t.results = s.results ++ [.ok] ∧ t.command.busy = false ∧ t.command.seq = ⟨.idle, 0, 0⟩)
    ∧ (t.txTrace = s.txTrace ∨ ∃ op, t.txTrace = s.txTrace ++ [op])

/-- 20_memory.md section 8 (R76): a word presented while `BUSY = 1` is not consumed: it stays on the port through every turn
but the host's own. The accept step takes it off the port (log 7). -/
def Obligations.PresentedWordWaitsWhileBusy : Prop :=
  ∀ (s t : State) (m : Config.Move) (w : CommandWord),
    SeqCoherent s → s.command.busy = true → s.port = some w → takeTurn m s = .next t →
    (∀ w', m ≠ .present w') → m ≠ .withdraw → t.port = some w

/-! ## The Timing Base -/

/-- Rules R200 and R230: the tick step, always enabled; the compare on the value just reached, and
nowhere else. -/
def Obligations.TickAdvancesAndCompares : Prop :=
  ∀ (s : State),
    (s.tcnt + 1 ≠ s.config.ocr ∨ s.config.cmpIe = false ∨ s.capture.cmpPend = true →
      takeTurn .tick s = .next { s with tcnt := s.tcnt + 1 })
    ∧ (s.tcnt + 1 = s.config.ocr → s.config.cmpIe = true → s.capture.cmpPend = false →
      takeTurn .tick s = .next { s with tcnt := s.tcnt + 1, capture := { s.capture with
        cmpPend := true,
        first := if s.capture.edgePend then .edge else s.capture.first } })
    ∧ ∀ m t, m ≠ .tick → takeTurn m s = .next t →
      t.tcnt = s.tcnt ∧ (s.capture.cmpPend = false → t.capture.cmpPend = false)

/-- Rule R208: over any turns the counter advances by the number of ticks modulo 256, and nothing else
changes it. -/
def Obligations.CounterCountsTicksOnly : Prop :=
  ∀ (ms : List Config.Move) (s t : State), runMoves ms s = .next t →
    t.tcnt = s.tcnt + BitVec.ofNat 8 (ms.count .tick)

/-- 60_exceptions.md section 5 (R246) and 43_timing_base.md section 4: while the counter has not reached
the compare value, no compare match is raised and no timeout is forwarded, whatever else happens. -/
def Obligations.NoTimeoutBeforeTheCompareValue : Prop :=
  ∀ (ms : List Config.Move) (s t : State),
    (∀ v, Config.Move.cfgWrite 1 v ∉ ms) → ms.count .tick ≤ (s.config.ocr - s.tcnt - 1).toNat →
    s.capture.cmpPend = false → runMoves ms s = .next t →
    t.capture.cmpPend = false ∧ t.rxTrace.count .onTimeout = s.rxTrace.count .onTimeout

/-- 60_exceptions.md section 5 (R246) and 43_timing_base.md section 4 (R210): the tick that makes the
counter equal to the compare value raises the match, whatever happened since the compare value and the
enable were last written. -/
def Obligations.ReachingTheCompareValueRaisesTheMatch : Prop :=
  ∀ (ms : List Config.Move) (s t : State),
    (∀ n v, Config.Move.cfgWrite n v ∉ ms) → ms.count .tick = (s.config.ocr - s.tcnt - 1).toNat →
    s.config.cmpIe = true → runMoves (ms ++ [.tick]) s = .next t →
    t.tcnt = s.config.ocr ∧ t.capture.cmpPend = true

/-- Rule R203 (with R202): the prescaler is the first candidate that fits; it is the smallest that fits
and every later candidate fits too; it never changes at run time; the reference build has 256. -/
def Obligations.PrescalerIsTheSmallestThatFits : Prop :=
  (∀ (p : Config.Params) (P : Nat), wellFormedBuild p = true → prescaler? p = some P →
    P ∈ p.prescalerCandidates ∧ 1500 * p.fClkHz / (P * 1000000) < 255
    ∧ (∀ Q ∈ p.prescalerCandidates, Q < P ↔ ¬(1500 * p.fClkHz / (Q * 1000000) < 255))
    ∧ (∀ Q ∈ p.prescalerCandidates, fits p Q = true ↔ 1500 * p.fClkHz / (Q * 1000000) < 255))
  ∧ (∀ (m : Config.Move) (s t : State), takeTurn m s = .next t →
      prescaler? t.params = prescaler? s.params)
  ∧ prescaler? Config.Params.reference = some 256

/-- Rule R204: when no candidate fits there is no machine; parameters of the types of 00_scope.md R9 with
a candidate that fits launch one. -/
def Obligations.BuildFailsWhenNoCandidateFits : Prop :=
  ∀ (p : Config.Params) (v : LaunchValues),
    ((∀ P ∈ p.prescalerCandidates, ¬(1500 * p.fClkHz / (P * 1000000) < 255)) →
      State.launch p v = none)
    ∧ (0 < p.fClkHz → p.prescalerCandidates.Pairwise (· < ·) →
        (∀ P ∈ p.prescalerCandidates, 0 < P) →
        (∃ P ∈ p.prescalerCandidates, 1500 * p.fClkHz / (P * 1000000) < 255) →
      State.launch p v = some (State.resetWith p v))

/-- 43_timing_base.md section 3 (R207, on the formulas of R205 and R206): a round trip through either
conversion never gains, both are monotone and send 0 to 0, and the tick round trip is exact when the
tick period is a whole number of microseconds. -/
def Obligations.ConversionRoundTripsNeverGain : Prop :=
  ∀ (p : Config.Params) (P : Nat), 0 < p.fClkHz → 0 < P →
    (∀ us, ticksToUsWith p P (usToTicksWith p P us) ≤ us)
    ∧ (∀ t, usToTicksWith p P (ticksToUsWith p P t) ≤ t)
    ∧ (p.fClkHz ∣ 1000000 * P → ∀ t, usToTicksWith p P (ticksToUsWith p P t) = t)
    ∧ (∀ a b, a ≤ b → usToTicksWith p P a ≤ usToTicksWith p P b
        ∧ ticksToUsWith p P a ≤ ticksToUsWith p P b)
    ∧ usToTicksWith p P 0 = 0 ∧ ticksToUsWith p P 0 = 0

/-! ## The capture front-ends -/

/-- Rule R272: the init step forwards `DEC.onInit()` once, first of all; until it has occurred no turn of
the Command agent or the configuration master does anything and an edge sets no pending flag; nothing
undoes it. `InitFirst` is the invariant of `EveryStepKeepsInitFirst`. -/
def Obligations.InitStepComesFirst : Prop :=
  ∀ (s : State),
    (s.capture.initDone = false →
      takeTurn .capture s = .next { s with
        capture := { s.capture with initDone := true }, rxTrace := s.rxTrace ++ [.onInit] }
      ∧ takeTurn .command s = .next s
      ∧ (∀ n, takeTurn (.cfgRead n) s = .next s) ∧ ∀ n v, takeTurn (.cfgWrite n v) s = .next s)
    ∧ (s.capture.initDone = false → InitFirst s →
      (∀ t, takeTurn .capture s = .next t → t.rxTrace = [.onInit])
      ∧ takeTurn .edge s = .next { s with rx := !s.rx })
    ∧ (∀ m t, s.capture.initDone = true → takeTurn m s = .next t →
      t.capture.initDone = true ∧ t.rxTrace.count .onInit = s.rxTrace.count .onInit)

/-- Rule R229: the edge step. -/
def Obligations.EdgeStepRaisesOnce : Prop :=
  ∀ (s : State),
    (s.config.edgeIe = false ∨ s.capture.edgePend = true →
      takeTurn .edge s = .next { s with rx := !s.rx })
    ∧ (s.config.edgeIe = true → s.capture.edgePend = false →
      takeTurn .edge s = .next { s with rx := !s.rx, capture := { s.capture with
        edgePend := true, first := if s.capture.cmpPend then .cmp else s.capture.first } })

/-- Rule R231: the edge service step, wherever it is enabled; no turn forwards an edge event otherwise. -/
def Obligations.EdgeServiceForwardsTheSnapshot : Prop :=
  ∀ (s : State),
    (s.capture.initDone = true → s.capture.edgePend = true → s.capture.inIrq = false →
      (s.capture.cmpPend = false ∨ s.capture.first = .edge) →
    takeTurn .capture s = .next { s with
      capture := { s.capture with
        edgePend := false, inIrq := true,
        statusInd := if s.params.mirrorEdge then s.rx else s.capture.statusInd },
      rxTrace := s.rxTrace ++ [.onEdge s.tcnt s.rx] })
    ∧ ∀ m t k r, takeTurn m s = .next t →
      ¬(m = .capture ∧ s.capture.initDone = true ∧ s.capture.edgePend = true ∧ s.capture.inIrq = false
        ∧ (s.capture.cmpPend = false ∨ s.capture.first = .edge)) →
      t.rxTrace.count (.onEdge k r) = s.rxTrace.count (.onEdge k r)
      ∧ (s.capture.edgePend = true → t.capture.edgePend = true)

/-- Rule R236: the timeout service step, wherever it is enabled; no turn forwards a timeout otherwise. -/
def Obligations.TimeoutServiceForwardsNoValue : Prop :=
  ∀ (s : State),
    (s.capture.initDone = true → s.capture.cmpPend = true → s.capture.inIrq = false →
      (s.capture.edgePend = false ∨ s.capture.first = .cmp) →
    takeTurn .capture s = .next { s with
      capture := { s.capture with cmpPend := false, inIrq := true },
      rxTrace := s.rxTrace ++ [.onTimeout] })
    ∧ ∀ m t, takeTurn m s = .next t →
      ¬(m = .capture ∧ s.capture.initDone = true ∧ s.capture.cmpPend = true ∧ s.capture.inIrq = false
        ∧ (s.capture.edgePend = false ∨ s.capture.first = .cmp)) →
      t.rxTrace.count .onTimeout = s.rxTrace.count .onTimeout
      ∧ (s.capture.cmpPend = true → t.capture.cmpPend = true)

/-- Rule R242, with the return step of 60_exceptions.md section 5: the return step clears `IN_IRQ` and
nothing else; while a handler runs no turn forwards an event, and an interrupt pending or raised
meanwhile stays pending and is serviced after the return; the Capture agent raises no `ParseError`. -/
def Obligations.HandlersReturnAndDoNotNest : Prop :=
  ∀ (s : State), s.capture.initDone = true → s.capture.inIrq = true →
    takeTurn .capture s = .next { s with capture := { s.capture with inIrq := false } }
    ∧ (s.capture.edgePend = true ∨ s.capture.cmpPend = true → ∀ t u,
        takeTurn .capture s = .next t → takeTurn .capture t = .next u →
        u.capture.inIrq = true ∧ ∃ e, e ≠ .onInit ∧ u.rxTrace = s.rxTrace ++ [e])
    ∧ ∀ m t, takeTurn m s = .next t →
      t.rxTrace = s.rxTrace
      ∧ (s.capture.edgePend = true → t.capture.edgePend = true)
      ∧ (s.capture.cmpPend = true → t.capture.cmpPend = true)
      ∧ (m ≠ .capture → t.capture.inIrq = true)
      ∧ (m = .capture → t.results = s.results)

/-- Rule R238: of two pending interrupts the one raised first is serviced first, whatever turns of the
other agents come between; each service forwards one event and leaves the other pending; one pending
alone is serviced. -/
def Obligations.OldestPendingInterruptIsServicedFirst : Prop :=
  ∀ (s t u : State) (ms : List Config.Move),
    s.capture.initDone = true → s.capture.inIrq = false → Config.Move.capture ∉ ms →
    (s.capture.edgePend = true → s.capture.cmpPend = false → s.config.cmpIe = true →
      s.tcnt + 1 = s.config.ocr → runMoves (.tick :: ms) s = .next t → takeTurn .capture t = .next u →
      u.rxTrace = t.rxTrace ++ [.onEdge t.tcnt t.rx] ∧ t.rxTrace = s.rxTrace
      ∧ u.capture.edgePend = false ∧ u.capture.cmpPend = true)
    ∧ (s.capture.cmpPend = true → s.capture.edgePend = false → s.config.edgeIe = true →
      runMoves (.edge :: ms) s = .next t → takeTurn .capture t = .next u →
      u.rxTrace = t.rxTrace ++ [.onTimeout] ∧ t.rxTrace = s.rxTrace
      ∧ u.capture.cmpPend = false ∧ u.capture.edgePend = true)
    ∧ (s.capture.edgePend = true → s.capture.cmpPend = false → takeTurn .capture s = .next u →
      u.rxTrace = s.rxTrace ++ [.onEdge s.tcnt s.rx])
    ∧ (s.capture.cmpPend = true → s.capture.edgePend = false → takeTurn .capture s = .next u →
      u.rxTrace = s.rxTrace ++ [.onTimeout])

/-- 60_exceptions.md section 3 (R232): when service is late the event carries the counter and the level
at the service step: the ticks in between are added to the counter, and all transitions in between are
merged into the one event. -/
def Obligations.LateServiceReportsTheServiceTime : Prop :=
  ∀ (s t : State) (ms : List Config.Move),
    s.capture.initDone = true → s.capture.inIrq = false → s.config.edgeIe = true →
    s.capture.edgePend = false → s.capture.cmpPend = false →
    (∀ m ∈ ms, m = .tick ∨ m = .edge) →
    runMoves (.edge :: (ms ++ [.capture])) s = .next t →
    t.rxTrace = s.rxTrace ++ [.onEdge (s.tcnt + BitVec.ofNat 8 (ms.count .tick))
      (s.rx ^^ (ms.count .edge % 2 == 0))]
    ∧ t.capture.edgePend = false

/-- 60_exceptions.md section 5 (R245): in an eager run every enabled transition yields exactly one
`DEC.onEdge` with the counter at the transition and the level just reached, every enabled compare match
exactly one `DEC.onTimeout`, in the order they occurred. -/
def Obligations.EagerRunForwardsEveryEvent : Prop :=
  ∀ (ms : List Config.Move) (s t : State),
    s.capture.initDone = true → s.capture.inIrq = false →
    s.capture.edgePend = false → s.capture.cmpPend = false →
    eager .clear ms s = true → runMoves ms s = .next t →
    t.rxTrace = s.rxTrace ++ raisedAlong ms s
    ∧ t.capture.edgePend = false ∧ t.capture.cmpPend = false ∧ t.capture.inIrq = false

/-- Rule R243: the Command agent and the Capture agent are independent. Striking out every turn of the
receive side leaves the transmit side of a run exactly as it was, and striking out every turn of the
transmit side leaves the receive side exactly as it was. -/
def Obligations.CommandAndCaptureAgentsAreIndependent : Prop :=
  ∀ (ms : List Config.Move) (s t : State), runMoves ms s = .next t →
    (s.capture.initDone = true → ∃ u, runMoves (ms.filter isCommandSide) s = .next u
      ∧ u.command = t.command ∧ u.radio = t.radio ∧ u.port = t.port ∧ u.txTrace = t.txTrace
      ∧ u.results = t.results)
    ∧ ∃ u, runMoves (ms.filter (fun m => !isCommandSide m)) s = .next u
      ∧ u.tcnt = t.tcnt ∧ u.config = t.config ∧ u.capture = t.capture ∧ u.rx = t.rx
      ∧ u.rxTrace = t.rxTrace

/-! ## The configuration port -/

/-- Rule R37: the read view and the effect of a write of each of the eight registers. A read has no side
effect; the model's own record of the value read (`cfgData`, log 8) is kept apart, in
`ConfigurationAccessesTakeEffect`. Register 4 reads `DEBUG` in a debug build, and in every build under
`BuildHardWired`, the invariant of `EveryStepKeepsTheBuildHardWired` (rule R28); that it reads zero in
any other build is in `SetDebugStoresTheFlagWhenBuilt`. -/
def Obligations.ConfigurationRegistersReadAndWrite : Prop :=
  ∀ (s : State),
    cfgRead 0 s = s.tcnt ∧ cfgRead 1 s = s.config.ocr
    ∧ (cfgRead 2 s).toNat = s.config.edgeIe.toNat + 2 * s.config.cmpIe.toNat
    ∧ (cfgRead 3 s).toNat = s.capture.edgePend.toNat + 2 * s.capture.cmpPend.toNat
    ∧ (s.params.debugBuild = true ∨ BuildHardWired s → cfgRead 4 s = s.command.debug)
    ∧ (cfgRead 5 s).toNat
        = s.command.busy.toNat + 2 * s.rx.toNat + 4 * s.capture.statusInd.toNat
    ∧ cfgRead 6 s = 0 ∧ cfgRead 7 s = 0
    ∧ (s.capture.initDone = true →
      (∀ n, ∃ t, takeTurn (.cfgRead n) s = .next t ∧ { t with cfgData := s.cfgData } = s)
      ∧ (∀ v, takeTurn (.cfgWrite 1 v) s = .next { s with config := { s.config with ocr := v } })
      ∧ (∀ v, takeTurn (.cfgWrite 2 v) s = .next { s with config := { s.config with
          edgeIe := v.getLsbD 0, cmpIe := v.getLsbD 1 } })
      ∧ ∀ n v, n ≠ 1 → n ≠ 2 → takeTurn (.cfgWrite n v) s = .next s)

/-- 20_memory.md section 4 (R66): a read answers the read view and changes nothing but the model's own record of it (log 8);
a write sets `OCR` or the two enables and nothing else; both only after init. A write raises and clears
nothing: a compare value equal to the present count matches on the 256th tick, not before, and an
interrupt pending when its enable is cleared is still serviced. -/
def Obligations.ConfigurationAccessesTakeEffect : Prop :=
  (∀ (s : State) (n : Fin 8), takeTurn (.cfgRead n) s
    = .next (if s.capture.initDone then { s with cfgData := some (cfgRead n s) } else s))
  ∧ (∀ (s : State) (n : Fin 8) (v : Byte), takeTurn (.cfgWrite n v) s
    = .next (if s.capture.initDone then
        { s with config :=
          { ocr := if n = 1 then v else s.config.ocr
            edgeIe := if n = 2 then v.getLsbD 0 else s.config.edgeIe
            cmpIe := if n = 2 then v.getLsbD 1 else s.config.cmpIe } }
      else s))
  ∧ (∀ (s t : State) (k : Nat), s.capture.initDone = true → s.config.cmpIe = true →
    s.capture.cmpPend = false →
    runMoves (.cfgWrite 1 s.tcnt :: List.replicate k .tick) s = .next t → k ≤ 256 →
    (t.capture.cmpPend = true ↔ k = 256))
  ∧ ∀ (s t : State), s.capture.initDone = true → s.capture.inIrq = false →
    s.capture.edgePend = false ∨ s.capture.cmpPend = false →
    runMoves [.cfgWrite 2 0, .capture] s = .next t →
    (s.capture.edgePend = true → t.rxTrace = s.rxTrace ++ [.onEdge s.tcnt s.rx])
    ∧ (s.capture.cmpPend = true → t.rxTrace = s.rxTrace ++ [.onTimeout])

/-! ## Reset, invariants, and the whole machine -/

/-- Rules R41 and R270: the values the spec gives every launch state, whatever the build and whatever
the values it leaves open; the open ones are as chosen at launch. `CHK`, open too, follows the
latches (`ChkIsTheChecksumOfTheLatches`). -/
def Obligations.LaunchStateHasTheResetValues : Prop :=
  ∀ (p : Config.Params) (v : LaunchValues) (s : State), State.launch p v = some s →
    s.params = p
    ∧ s.command.seq = ⟨.idle, 0, 0⟩ ∧ s.command.busy = false ∧ s.command.debug = 0
    ∧ s.config.edgeIe = false ∧ s.config.cmpIe = false
    ∧ s.capture.edgePend = false ∧ s.capture.cmpPend = false ∧ s.capture.inIrq = false
    ∧ s.capture.initDone = false ∧ s.capture.statusInd = false ∧ s.radio.isOpen = false
    ∧ s.txTrace = [] ∧ s.rxTrace = [] ∧ s.results = []
    ∧ s.tcnt = v.tcnt ∧ s.config.ocr = v.ocr ∧ s.capture.first = v.first ∧ s.rx = v.rx
    ∧ s.radio.desc = v.desc
    ∧ s.command.var = v.var ∧ s.command.hc = v.hc ∧ s.command.addr = v.addr
    ∧ s.command.cmd = v.cmd ∧ s.command.data = v.data ∧ s.command.val = v.val
    ∧ s.command.kind = v.kind
    ∧ captureContext s = .mainloop

/-- Every launch state meets the invariant, and `State.reset` is one. That `State.reset` takes zero where
the spec says "any" is the model's choice (log 5). -/
def Obligations.LaunchStatesMeetTheInvariant : Prop :=
  (∀ s : State, CleanLaunch s → s.Inv) ∧ CleanLaunch State.reset

/-- 10_state.md section 2 and 41_transmit_scheduler.md section 5: `SEQ`, `BUSY`, `KIND` and `RL.open`
stay coherent, the indices stay in their ranges, over every step of every agent. -/
def Obligations.EveryStepKeepsTheSequencerCoherent : Prop :=
  ∀ (s t : State), SeqCoherent s → step s = .next t → SeqCoherent t

/-- 41_transmit_scheduler.md section 4 (R171 items 1 to 3): over every step the transmit trace stays
correctly bracketed, and `RL.open` is what the trace says. -/
def Obligations.EveryStepKeepsTheTraceBracketed : Prop :=
  ∀ (s t : State), SeqCoherent s → TraceBracketed s → step s = .next t → TraceBracketed t

/-- 10_state.md R36 and 20_memory.md section 6 (R72 item 2): over every step, `DEC.onInit()` stays the
first decoder event and the only one of its kind, and nothing is answered, transmitted or raised
before it. -/
def Obligations.EveryStepKeepsInitFirst : Prop :=
  ∀ (s t : State), InitFirst s → step s = .next t → InitFirst t

/-- 10_state.md section 4 (R28, R35): over every step a build without the debug flag keeps it at zero, a
build without the mirror keeps the indicator at zero, and the build stays what it is. -/
def Obligations.EveryStepKeepsTheBuildHardWired : Prop :=
  ∀ (s t : State), BuildHardWired s → step s = .next t → BuildHardWired t ∧ t.params = s.params

/-- 60_exceptions.md section 1 (R220): nothing is fatal. From every coherent state every step answers a
next state; the model's one fault is out of reach (log 9). -/
def Obligations.CoherentStatesNeverStop : Prop :=
  ∀ (s : State), SeqCoherent s → ∃ t, step s = .next t

/-- 10_state.md sections 1 to 5 (the owner each rule names): which turns can change each piece of the
block's state. The clauses on the model's own fields rest on the log: the command port (log 7), the
value last read (log 8), the schedule and the count of free turns (logs 1 and 2), and the build
parameters, which 00_scope.md section 5 fixes and State holds (log 4). -/
def Obligations.OnlyTheOwnerWritesItsState : Prop :=
  ∀ (m : Config.Move) (s t : State), takeTurn m s = .next t →
    t.params = s.params
    ∧ (m ≠ .command → t.command = s.command ∧ t.radio = s.radio ∧ t.txTrace = s.txTrace
        ∧ t.results = s.results)
    ∧ (m ≠ .tick → t.tcnt = s.tcnt)
    ∧ ((∀ n v, m ≠ .cfgWrite n v) → t.config = s.config)
    ∧ (m ≠ .edge → t.rx = s.rx)
    ∧ (m ≠ .capture → m ≠ .tick → m ≠ .edge → t.capture = s.capture)
    ∧ (m ≠ .capture → t.rxTrace = s.rxTrace ∧ t.capture.statusInd = s.capture.statusInd
        ∧ t.capture.inIrq = s.capture.inIrq ∧ t.capture.initDone = s.capture.initDone)
    ∧ (m ≠ .command → (∀ w, m ≠ .present w) → m ≠ .withdraw → t.port = s.port)
    ∧ ((∀ n, m ≠ .cfgRead n) → t.cfgData = s.cfgData)
    ∧ (s.command.seq.st ≠ .tune → t.radio.desc = s.radio.desc)
    ∧ (s.command.seq.st ≠ .idle → t.command.debug = s.command.debug
        ∧ (m = .command → t.port = s.port))
    ∧ t.schedule = s.schedule ∧ t.turns = s.turns

/-- The host's run of the machine under a schedule is the run of its turns in order: the schedule is the
model's device for the interleaving that 00_scope.md R6 leaves open (log 1). -/
def Obligations.RunningAScheduleTakesItsTurns : Prop :=
  ∀ (ms rest : List Config.Move) (s : State),
    Host.Core.run core ms.length { s with schedule := ms ++ rest }
      = runMoves ms { s with schedule := rest }

/-- 10_state.md section 1 (R22): `CHK` is in every state the checksum of the latches, and the last byte
of the frame they give; so at launch it is the checksum of the latch values chosen, and after the accept
step of a send that of the operands. That `CHK` is a view and has no storage of its own is log 12; the
values chosen at launch are log 5. -/
def Obligations.ChkIsTheChecksumOfTheLatches : Prop :=
  (∀ s : State,
    s.chk = checksum s.command.var s.command.hc s.command.addr s.command.cmd s.command.data
    ∧ (fieldBytes s.command.var s.command.hc s.command.addr s.command.cmd s.command.data).getLast?
      = some s.chk)
  ∧ (∀ (p : Config.Params) (v : LaunchValues) (s : State), State.launch p v = some s →
    s.chk = checksum v.var v.hc v.addr v.cmd v.data)
  ∧ ∀ (s : State) (hc : HouseCode) (addr cmd data : Byte),
    ∃ t, exec (.sendA hc addr cmd data) s = .next t ∧ t.chk = checksum .formatA hc addr cmd data
end

