-- ==== Sys2Proof/Laws/Decode.lean ====
section
/-! SUPPORT. The fields of a command word as numbers, the two formats as numbers, and what each field
of a built word is. -/

namespace Sys2Proof

theorem appendLow_toNat {n m : Nat} (x : BitVec n) (y : BitVec m) :
    (x ++ y).toNat = x.toNat * 2 ^ m + y.toNat := by
  rw [BitVec.toNat_append, ← Nat.shiftLeft_add_eq_or_of_lt y.isLt, Nat.shiftLeft_eq]

theorem formatS_toNat (op : Byte) (hc : HouseCode) (ad cm da : Byte) :
    (formatS op hc ad cm da).toNat
      = (((op.toNat * 2 ^ 16 + hc.toNat) * 2 ^ 8 + ad.toNat) * 2 ^ 8 + cm.toNat) * 2 ^ 8
        + da.toNat := by
  simp only [formatS, appendLow_toNat]

theorem formatV_toNat (op v : Byte) : (formatV op v).toNat = op.toNat * 2 ^ 40 + v.toNat := by
  simp only [formatV, appendLow_toNat, BitVec.ofNat_eq_ofNat, BitVec.toNat_ofNat]
  omega

theorem opField_toNat (w : CommandWord) : (opField w).toNat = w.toNat / 2 ^ 40 := by
  have := w.isLt
  simp only [opField, BitVec.extractLsb'_toNat, Nat.shiftRight_eq_div_pow]
  omega

theorem hcField_toNat (w : CommandWord) : (hcField w).toNat = w.toNat / 2 ^ 24 % 2 ^ 16 := by
  simp only [hcField, BitVec.extractLsb'_toNat, Nat.shiftRight_eq_div_pow]

theorem addrField_toNat (w : CommandWord) : (addrField w).toNat = w.toNat / 2 ^ 16 % 2 ^ 8 := by
  simp only [addrField, BitVec.extractLsb'_toNat, Nat.shiftRight_eq_div_pow]

theorem cmdField_toNat (w : CommandWord) : (cmdField w).toNat = w.toNat / 2 ^ 8 % 2 ^ 8 := by
  simp only [cmdField, BitVec.extractLsb'_toNat, Nat.shiftRight_eq_div_pow]

theorem lowField_toNat (w : CommandWord) : (lowField w).toNat = w.toNat % 2 ^ 8 := by
  simp only [lowField, BitVec.extractLsb'_toNat, Nat.shiftRight_eq_div_pow]
  omega

theorem zeroField_toNat (w : CommandWord) : (zeroField w).toNat = w.toNat / 2 ^ 8 % 2 ^ 32 := by
  simp only [zeroField, BitVec.extractLsb'_toNat, Nat.shiftRight_eq_div_pow]

section
variable (op : Byte) (hc : HouseCode) (ad cm da : Byte)

@[simp] theorem opField_formatS : opField (formatS op hc ad cm da) = op := by
  apply BitVec.eq_of_toNat_eq; rw [opField_toNat, formatS_toNat]; omega

@[simp] theorem hcField_formatS : hcField (formatS op hc ad cm da) = hc := by
  apply BitVec.eq_of_toNat_eq; rw [hcField_toNat, formatS_toNat]; omega

@[simp] theorem addrField_formatS : addrField (formatS op hc ad cm da) = ad := by
  apply BitVec.eq_of_toNat_eq; rw [addrField_toNat, formatS_toNat]; omega

@[simp] theorem cmdField_formatS : cmdField (formatS op hc ad cm da) = cm := by
  apply BitVec.eq_of_toNat_eq; rw [cmdField_toNat, formatS_toNat]; omega

@[simp] theorem lowField_formatS : lowField (formatS op hc ad cm da) = da := by
  apply BitVec.eq_of_toNat_eq; rw [lowField_toNat, formatS_toNat]; omega

@[simp] theorem opField_formatV : opField (formatV op da) = op := by
  apply BitVec.eq_of_toNat_eq; rw [opField_toNat, formatV_toNat]; omega

@[simp] theorem lowField_formatV : lowField (formatV op da) = da := by
  apply BitVec.eq_of_toNat_eq; rw [lowField_toNat, formatV_toNat]; omega

@[simp] theorem zeroField_formatV : zeroField (formatV op da) = 0 := by
  apply BitVec.eq_of_toNat_eq
  rw [zeroField_toNat, formatV_toNat, BitVec.ofNat_eq_ofNat, BitVec.toNat_ofNat, Nat.zero_mod]; omega

end

/-- A word is its five fields of format `S`. -/
theorem formatS_of_fields (w : CommandWord) :
    formatS (opField w) (hcField w) (addrField w) (cmdField w) (lowField w) = w := by
  apply BitVec.eq_of_toNat_eq
  rw [formatS_toNat, opField_toNat, hcField_toNat, addrField_toNat, cmdField_toNat, lowField_toNat]
  omega

/-- A word whose reserved bits are zero is its two fields of format `V`. -/
theorem formatV_of_fields (w : CommandWord) (h : zeroField w = 0) :
    formatV (opField w) (lowField w) = w := by
  have hz := congrArg BitVec.toNat h
  rw [zeroField_toNat] at hz
  apply BitVec.eq_of_toNat_eq
  rw [formatV_toNat, opField_toNat, lowField_toNat]
  simp only [BitVec.ofNat_eq_ofNat, BitVec.toNat_ofNat] at hz
  omega

end Sys2Proof
end

