-- ==== Sys2Proof/Laws/PerInstr.lean ====
section
/-! SUPPORT. The fields that each instruction's word carries, one lemma per instruction
(30_encoding.md rules R90 and R93). -/

namespace Sys2Proof.Laws.Fields

/-- Every field of the encoded word reads as the operand it stands for, the opcode as the table gives
it. -/
def Statement (i : Instr) : Prop :=
  match i with
  | .sendA hc addr cmd data =>
    opField (encode i) = 0x01 ∧ hcField (encode i) = hc ∧ addrField (encode i) = addr
      ∧ cmdField (encode i) = cmd ∧ lowField (encode i) = data
  | .sendB hc addr cmd data =>
    opField (encode i) = 0x02 ∧ hcField (encode i) = hc ∧ addrField (encode i) = addr
      ∧ cmdField (encode i) = cmd ∧ lowField (encode i) = data
  | .setGain val =>
    opField (encode i) = 0x03 ∧ zeroField (encode i) = 0 ∧ lowField (encode i) = val
  | .setDrssi val =>
    opField (encode i) = 0x04 ∧ zeroField (encode i) = 0 ∧ lowField (encode i) = val
  | .setDebug val =>
    opField (encode i) = 0x05 ∧ zeroField (encode i) = 0 ∧ lowField (encode i) = val

theorem sendA (hc : HouseCode) (addr cmd data : Byte) : Statement (.sendA hc addr cmd data) := by
  simp [Statement, encode, opSendA]

theorem sendB (hc : HouseCode) (addr cmd data : Byte) : Statement (.sendB hc addr cmd data) := by
  simp [Statement, encode, opSendB]

theorem setGain (val : Byte) : Statement (.setGain val) := by
  simp [Statement, encode, opSetGain]

theorem setDrssi (val : Byte) : Statement (.setDrssi val) := by
  simp [Statement, encode, opSetDrssi]

theorem setDebug (val : Byte) : Statement (.setDebug val) := by
  simp [Statement, encode, opSetDebug]

end Sys2Proof.Laws.Fields
end

