-- ==== Sys2Proof/Laws/State.lean ====
section
/-! SUPPORT. For every named update of the state, one lemma per field of `State`, true by rfl, so that no
proof unfolds a record update. -/

namespace Sys2Proof.Machine

variable (s : State)

@[simp] theorem State.emitTx_params (op : TxOp) : (s.emitTx op).params = s.params := rfl
@[simp] theorem State.emitTx_command (op : TxOp) : (s.emitTx op).command = s.command := rfl
@[simp] theorem State.emitTx_tcnt (op : TxOp) : (s.emitTx op).tcnt = s.tcnt := rfl
@[simp] theorem State.emitTx_config (op : TxOp) : (s.emitTx op).config = s.config := rfl
@[simp] theorem State.emitTx_capture (op : TxOp) : (s.emitTx op).capture = s.capture := rfl
@[simp] theorem State.emitTx_rx (op : TxOp) : (s.emitTx op).rx = s.rx := rfl
@[simp] theorem State.emitTx_radio (op : TxOp) : (s.emitTx op).radio = s.radio := rfl
@[simp] theorem State.emitTx_port (op : TxOp) : (s.emitTx op).port = s.port := rfl
@[simp] theorem State.emitTx_cfgData (op : TxOp) : (s.emitTx op).cfgData = s.cfgData := rfl
@[simp] theorem State.emitTx_txTrace (op : TxOp) : (s.emitTx op).txTrace = s.txTrace ++ [op] := rfl
@[simp] theorem State.emitTx_rxTrace (op : TxOp) : (s.emitTx op).rxTrace = s.rxTrace := rfl
@[simp] theorem State.emitTx_results (op : TxOp) : (s.emitTx op).results = s.results := rfl
@[simp] theorem State.emitTx_schedule (op : TxOp) : (s.emitTx op).schedule = s.schedule := rfl
@[simp] theorem State.emitTx_turns (op : TxOp) : (s.emitTx op).turns = s.turns := rfl

@[simp] theorem State.emitRx_params (e : DecEvent) : (s.emitRx e).params = s.params := rfl
@[simp] theorem State.emitRx_command (e : DecEvent) : (s.emitRx e).command = s.command := rfl
@[simp] theorem State.emitRx_tcnt (e : DecEvent) : (s.emitRx e).tcnt = s.tcnt := rfl
@[simp] theorem State.emitRx_config (e : DecEvent) : (s.emitRx e).config = s.config := rfl
@[simp] theorem State.emitRx_capture (e : DecEvent) : (s.emitRx e).capture = s.capture := rfl
@[simp] theorem State.emitRx_rx (e : DecEvent) : (s.emitRx e).rx = s.rx := rfl
@[simp] theorem State.emitRx_radio (e : DecEvent) : (s.emitRx e).radio = s.radio := rfl
@[simp] theorem State.emitRx_port (e : DecEvent) : (s.emitRx e).port = s.port := rfl
@[simp] theorem State.emitRx_cfgData (e : DecEvent) : (s.emitRx e).cfgData = s.cfgData := rfl
@[simp] theorem State.emitRx_txTrace (e : DecEvent) : (s.emitRx e).txTrace = s.txTrace := rfl
@[simp] theorem State.emitRx_rxTrace (e : DecEvent) : (s.emitRx e).rxTrace = s.rxTrace ++ [e] := rfl
@[simp] theorem State.emitRx_results (e : DecEvent) : (s.emitRx e).results = s.results := rfl
@[simp] theorem State.emitRx_schedule (e : DecEvent) : (s.emitRx e).schedule = s.schedule := rfl
@[simp] theorem State.emitRx_turns (e : DecEvent) : (s.emitRx e).turns = s.turns := rfl

@[simp] theorem State.emitResult_params (c : ResultCode) : (s.emitResult c).params = s.params := rfl
@[simp] theorem State.emitResult_command (c : ResultCode) :
    (s.emitResult c).command = s.command := rfl
@[simp] theorem State.emitResult_tcnt (c : ResultCode) : (s.emitResult c).tcnt = s.tcnt := rfl
@[simp] theorem State.emitResult_config (c : ResultCode) : (s.emitResult c).config = s.config := rfl
@[simp] theorem State.emitResult_capture (c : ResultCode) :
    (s.emitResult c).capture = s.capture := rfl
@[simp] theorem State.emitResult_rx (c : ResultCode) : (s.emitResult c).rx = s.rx := rfl
@[simp] theorem State.emitResult_radio (c : ResultCode) : (s.emitResult c).radio = s.radio := rfl
@[simp] theorem State.emitResult_port (c : ResultCode) : (s.emitResult c).port = s.port := rfl
@[simp] theorem State.emitResult_cfgData (c : ResultCode) :
    (s.emitResult c).cfgData = s.cfgData := rfl
@[simp] theorem State.emitResult_txTrace (c : ResultCode) :
    (s.emitResult c).txTrace = s.txTrace := rfl
@[simp] theorem State.emitResult_rxTrace (c : ResultCode) :
    (s.emitResult c).rxTrace = s.rxTrace := rfl
@[simp] theorem State.emitResult_results (c : ResultCode) :
    (s.emitResult c).results = s.results ++ [c] := rfl
@[simp] theorem State.emitResult_schedule (c : ResultCode) :
    (s.emitResult c).schedule = s.schedule := rfl
@[simp] theorem State.emitResult_turns (c : ResultCode) : (s.emitResult c).turns = s.turns := rfl

@[simp] theorem State.rlBegin_params : (s.rlBegin).params = s.params := rfl
@[simp] theorem State.rlBegin_command : (s.rlBegin).command = s.command := rfl
@[simp] theorem State.rlBegin_tcnt : (s.rlBegin).tcnt = s.tcnt := rfl
@[simp] theorem State.rlBegin_config : (s.rlBegin).config = s.config := rfl
@[simp] theorem State.rlBegin_capture : (s.rlBegin).capture = s.capture := rfl
@[simp] theorem State.rlBegin_rx : (s.rlBegin).rx = s.rx := rfl
@[simp] theorem State.rlBegin_radio : (s.rlBegin).radio = { s.radio with isOpen := true } := rfl
@[simp] theorem State.rlBegin_port : (s.rlBegin).port = s.port := rfl
@[simp] theorem State.rlBegin_cfgData : (s.rlBegin).cfgData = s.cfgData := rfl
@[simp] theorem State.rlBegin_txTrace : (s.rlBegin).txTrace = s.txTrace ++ [.rlBegin] := rfl
@[simp] theorem State.rlBegin_rxTrace : (s.rlBegin).rxTrace = s.rxTrace := rfl
@[simp] theorem State.rlBegin_results : (s.rlBegin).results = s.results := rfl
@[simp] theorem State.rlBegin_schedule : (s.rlBegin).schedule = s.schedule := rfl
@[simp] theorem State.rlBegin_turns : (s.rlBegin).turns = s.turns := rfl

@[simp] theorem State.rlEnd_params : (s.rlEnd).params = s.params := rfl
@[simp] theorem State.rlEnd_command : (s.rlEnd).command = s.command := rfl
@[simp] theorem State.rlEnd_tcnt : (s.rlEnd).tcnt = s.tcnt := rfl
@[simp] theorem State.rlEnd_config : (s.rlEnd).config = s.config := rfl
@[simp] theorem State.rlEnd_capture : (s.rlEnd).capture = s.capture := rfl
@[simp] theorem State.rlEnd_rx : (s.rlEnd).rx = s.rx := rfl
@[simp] theorem State.rlEnd_radio : (s.rlEnd).radio = { s.radio with isOpen := false } := rfl
@[simp] theorem State.rlEnd_port : (s.rlEnd).port = s.port := rfl
@[simp] theorem State.rlEnd_cfgData : (s.rlEnd).cfgData = s.cfgData := rfl
@[simp] theorem State.rlEnd_txTrace : (s.rlEnd).txTrace = s.txTrace ++ [.rlEnd] := rfl
@[simp] theorem State.rlEnd_rxTrace : (s.rlEnd).rxTrace = s.rxTrace := rfl
@[simp] theorem State.rlEnd_results : (s.rlEnd).results = s.results := rfl
@[simp] theorem State.rlEnd_schedule : (s.rlEnd).schedule = s.schedule := rfl
@[simp] theorem State.rlEnd_turns : (s.rlEnd).turns = s.turns := rfl

@[simp] theorem State.rlKey_params (l : Bit) (us : Nat) : (s.rlKey l us).params = s.params := rfl
@[simp] theorem State.rlKey_command (l : Bit) (us : Nat) : (s.rlKey l us).command = s.command := rfl
@[simp] theorem State.rlKey_tcnt (l : Bit) (us : Nat) : (s.rlKey l us).tcnt = s.tcnt := rfl
@[simp] theorem State.rlKey_config (l : Bit) (us : Nat) : (s.rlKey l us).config = s.config := rfl
@[simp] theorem State.rlKey_capture (l : Bit) (us : Nat) : (s.rlKey l us).capture = s.capture := rfl
@[simp] theorem State.rlKey_rx (l : Bit) (us : Nat) : (s.rlKey l us).rx = s.rx := rfl
@[simp] theorem State.rlKey_radio (l : Bit) (us : Nat) :
    (s.rlKey l us).radio = { s.radio with level := l } := rfl
@[simp] theorem State.rlKey_port (l : Bit) (us : Nat) : (s.rlKey l us).port = s.port := rfl
@[simp] theorem State.rlKey_cfgData (l : Bit) (us : Nat) : (s.rlKey l us).cfgData = s.cfgData := rfl
@[simp] theorem State.rlKey_txTrace (l : Bit) (us : Nat) :
    (s.rlKey l us).txTrace = s.txTrace ++ [.rlKey l us] := rfl
@[simp] theorem State.rlKey_rxTrace (l : Bit) (us : Nat) : (s.rlKey l us).rxTrace = s.rxTrace := rfl
@[simp] theorem State.rlKey_results (l : Bit) (us : Nat) : (s.rlKey l us).results = s.results := rfl
@[simp] theorem State.rlKey_schedule (l : Bit) (us : Nat) :
    (s.rlKey l us).schedule = s.schedule := rfl
@[simp] theorem State.rlKey_turns (l : Bit) (us : Nat) : (s.rlKey l us).turns = s.turns := rfl

@[simp] theorem State.rlReactivate_params : (s.rlReactivate).params = s.params := rfl
@[simp] theorem State.rlReactivate_command : (s.rlReactivate).command = s.command := rfl
@[simp] theorem State.rlReactivate_tcnt : (s.rlReactivate).tcnt = s.tcnt := rfl
@[simp] theorem State.rlReactivate_config : (s.rlReactivate).config = s.config := rfl
@[simp] theorem State.rlReactivate_capture : (s.rlReactivate).capture = s.capture := rfl
@[simp] theorem State.rlReactivate_rx : (s.rlReactivate).rx = s.rx := rfl
@[simp] theorem State.rlReactivate_radio : (s.rlReactivate).radio = s.radio := rfl
@[simp] theorem State.rlReactivate_port : (s.rlReactivate).port = s.port := rfl
@[simp] theorem State.rlReactivate_cfgData : (s.rlReactivate).cfgData = s.cfgData := rfl
@[simp] theorem State.rlReactivate_txTrace :
    (s.rlReactivate).txTrace = s.txTrace ++ [.rlReactivate] := rfl
@[simp] theorem State.rlReactivate_rxTrace : (s.rlReactivate).rxTrace = s.rxTrace := rfl
@[simp] theorem State.rlReactivate_results : (s.rlReactivate).results = s.results := rfl
@[simp] theorem State.rlReactivate_schedule : (s.rlReactivate).schedule = s.schedule := rfl
@[simp] theorem State.rlReactivate_turns : (s.rlReactivate).turns = s.turns := rfl

@[simp] theorem State.rlSetBGD_params (bw g d : Byte) : (s.rlSetBGD bw g d).params = s.params := rfl
@[simp] theorem State.rlSetBGD_command (bw g d : Byte) :
    (s.rlSetBGD bw g d).command = s.command := rfl
@[simp] theorem State.rlSetBGD_tcnt (bw g d : Byte) : (s.rlSetBGD bw g d).tcnt = s.tcnt := rfl
@[simp] theorem State.rlSetBGD_config (bw g d : Byte) : (s.rlSetBGD bw g d).config = s.config := rfl
@[simp] theorem State.rlSetBGD_capture (bw g d : Byte) :
    (s.rlSetBGD bw g d).capture = s.capture := rfl
@[simp] theorem State.rlSetBGD_rx (bw g d : Byte) : (s.rlSetBGD bw g d).rx = s.rx := rfl
@[simp] theorem State.rlSetBGD_radio (bw g d : Byte) :
    (s.rlSetBGD bw g d).radio = { s.radio with desc := { bandwidth := bw, gain := g, drssi := d } } := rfl
@[simp] theorem State.rlSetBGD_port (bw g d : Byte) : (s.rlSetBGD bw g d).port = s.port := rfl
@[simp] theorem State.rlSetBGD_cfgData (bw g d : Byte) :
    (s.rlSetBGD bw g d).cfgData = s.cfgData := rfl
@[simp] theorem State.rlSetBGD_txTrace (bw g d : Byte) :
    (s.rlSetBGD bw g d).txTrace = s.txTrace ++ [.rlSetBGD bw g d] := rfl
@[simp] theorem State.rlSetBGD_rxTrace (bw g d : Byte) :
    (s.rlSetBGD bw g d).rxTrace = s.rxTrace := rfl
@[simp] theorem State.rlSetBGD_results (bw g d : Byte) :
    (s.rlSetBGD bw g d).results = s.results := rfl
@[simp] theorem State.rlSetBGD_schedule (bw g d : Byte) :
    (s.rlSetBGD bw g d).schedule = s.schedule := rfl
@[simp] theorem State.rlSetBGD_turns (bw g d : Byte) : (s.rlSetBGD bw g d).turns = s.turns := rfl

@[simp] theorem State.delayUs_params (n : Nat) : (s.delayUs n).params = s.params := rfl
@[simp] theorem State.delayUs_command (n : Nat) : (s.delayUs n).command = s.command := rfl
@[simp] theorem State.delayUs_tcnt (n : Nat) : (s.delayUs n).tcnt = s.tcnt := rfl
@[simp] theorem State.delayUs_config (n : Nat) : (s.delayUs n).config = s.config := rfl
@[simp] theorem State.delayUs_capture (n : Nat) : (s.delayUs n).capture = s.capture := rfl
@[simp] theorem State.delayUs_rx (n : Nat) : (s.delayUs n).rx = s.rx := rfl
@[simp] theorem State.delayUs_radio (n : Nat) : (s.delayUs n).radio = s.radio := rfl
@[simp] theorem State.delayUs_port (n : Nat) : (s.delayUs n).port = s.port := rfl
@[simp] theorem State.delayUs_cfgData (n : Nat) : (s.delayUs n).cfgData = s.cfgData := rfl
@[simp] theorem State.delayUs_txTrace (n : Nat) :
    (s.delayUs n).txTrace = s.txTrace ++ [.delayUs n] := rfl
@[simp] theorem State.delayUs_rxTrace (n : Nat) : (s.delayUs n).rxTrace = s.rxTrace := rfl
@[simp] theorem State.delayUs_results (n : Nat) : (s.delayUs n).results = s.results := rfl
@[simp] theorem State.delayUs_schedule (n : Nat) : (s.delayUs n).schedule = s.schedule := rfl
@[simp] theorem State.delayUs_turns (n : Nat) : (s.delayUs n).turns = s.turns := rfl

@[simp] theorem State.goTo_params (st : St) (r i : Nat) : (s.goTo st r i).params = s.params := rfl
@[simp] theorem State.goTo_command (st : St) (r i : Nat) :
    (s.goTo st r i).command = { s.command with seq := { st := st, rep := r, idx := i } } := rfl
@[simp] theorem State.goTo_tcnt (st : St) (r i : Nat) : (s.goTo st r i).tcnt = s.tcnt := rfl
@[simp] theorem State.goTo_config (st : St) (r i : Nat) : (s.goTo st r i).config = s.config := rfl
@[simp] theorem State.goTo_capture (st : St) (r i : Nat) :
    (s.goTo st r i).capture = s.capture := rfl
@[simp] theorem State.goTo_rx (st : St) (r i : Nat) : (s.goTo st r i).rx = s.rx := rfl
@[simp] theorem State.goTo_radio (st : St) (r i : Nat) : (s.goTo st r i).radio = s.radio := rfl
@[simp] theorem State.goTo_port (st : St) (r i : Nat) : (s.goTo st r i).port = s.port := rfl
@[simp] theorem State.goTo_cfgData (st : St) (r i : Nat) :
    (s.goTo st r i).cfgData = s.cfgData := rfl
@[simp] theorem State.goTo_txTrace (st : St) (r i : Nat) :
    (s.goTo st r i).txTrace = s.txTrace := rfl
@[simp] theorem State.goTo_rxTrace (st : St) (r i : Nat) :
    (s.goTo st r i).rxTrace = s.rxTrace := rfl
@[simp] theorem State.goTo_results (st : St) (r i : Nat) :
    (s.goTo st r i).results = s.results := rfl
@[simp] theorem State.goTo_schedule (st : St) (r i : Nat) :
    (s.goTo st r i).schedule = s.schedule := rfl
@[simp] theorem State.goTo_turns (st : St) (r i : Nat) : (s.goTo st r i).turns = s.turns := rfl

@[simp] theorem State.setBusy_params (b : Bool) : (s.setBusy b).params = s.params := rfl
@[simp] theorem State.setBusy_command (b : Bool) :
    (s.setBusy b).command = { s.command with busy := b } := rfl
@[simp] theorem State.setBusy_tcnt (b : Bool) : (s.setBusy b).tcnt = s.tcnt := rfl
@[simp] theorem State.setBusy_config (b : Bool) : (s.setBusy b).config = s.config := rfl
@[simp] theorem State.setBusy_capture (b : Bool) : (s.setBusy b).capture = s.capture := rfl
@[simp] theorem State.setBusy_rx (b : Bool) : (s.setBusy b).rx = s.rx := rfl
@[simp] theorem State.setBusy_radio (b : Bool) : (s.setBusy b).radio = s.radio := rfl
@[simp] theorem State.setBusy_port (b : Bool) : (s.setBusy b).port = s.port := rfl
@[simp] theorem State.setBusy_cfgData (b : Bool) : (s.setBusy b).cfgData = s.cfgData := rfl
@[simp] theorem State.setBusy_txTrace (b : Bool) : (s.setBusy b).txTrace = s.txTrace := rfl
@[simp] theorem State.setBusy_rxTrace (b : Bool) : (s.setBusy b).rxTrace = s.rxTrace := rfl
@[simp] theorem State.setBusy_results (b : Bool) : (s.setBusy b).results = s.results := rfl
@[simp] theorem State.setBusy_schedule (b : Bool) : (s.setBusy b).schedule = s.schedule := rfl
@[simp] theorem State.setBusy_turns (b : Bool) : (s.setBusy b).turns = s.turns := rfl

@[simp] theorem State.latchSend_params (v : Variant) (hc : HouseCode) (ad cm da : Byte) :
    (s.latchSend v hc ad cm da).params = s.params := rfl
@[simp] theorem State.latchSend_command (v : Variant) (hc : HouseCode) (ad cm da : Byte) :
    (s.latchSend v hc ad cm da).command = { s.command with var := v, hc := hc, addr := ad, cmd := cm, data := da, kind := .send } := rfl
@[simp] theorem State.latchSend_tcnt (v : Variant) (hc : HouseCode) (ad cm da : Byte) :
    (s.latchSend v hc ad cm da).tcnt = s.tcnt := rfl
@[simp] theorem State.latchSend_config (v : Variant) (hc : HouseCode) (ad cm da : Byte) :
    (s.latchSend v hc ad cm da).config = s.config := rfl
@[simp] theorem State.latchSend_capture (v : Variant) (hc : HouseCode) (ad cm da : Byte) :
    (s.latchSend v hc ad cm da).capture = s.capture := rfl
@[simp] theorem State.latchSend_rx (v : Variant) (hc : HouseCode) (ad cm da : Byte) :
    (s.latchSend v hc ad cm da).rx = s.rx := rfl
@[simp] theorem State.latchSend_radio (v : Variant) (hc : HouseCode) (ad cm da : Byte) :
    (s.latchSend v hc ad cm da).radio = s.radio := rfl
@[simp] theorem State.latchSend_port (v : Variant) (hc : HouseCode) (ad cm da : Byte) :
    (s.latchSend v hc ad cm da).port = s.port := rfl
@[simp] theorem State.latchSend_cfgData (v : Variant) (hc : HouseCode) (ad cm da : Byte) :
    (s.latchSend v hc ad cm da).cfgData = s.cfgData := rfl
@[simp] theorem State.latchSend_txTrace (v : Variant) (hc : HouseCode) (ad cm da : Byte) :
    (s.latchSend v hc ad cm da).txTrace = s.txTrace := rfl
@[simp] theorem State.latchSend_rxTrace (v : Variant) (hc : HouseCode) (ad cm da : Byte) :
    (s.latchSend v hc ad cm da).rxTrace = s.rxTrace := rfl
@[simp] theorem State.latchSend_results (v : Variant) (hc : HouseCode) (ad cm da : Byte) :
    (s.latchSend v hc ad cm da).results = s.results := rfl
@[simp] theorem State.latchSend_schedule (v : Variant) (hc : HouseCode) (ad cm da : Byte) :
    (s.latchSend v hc ad cm da).schedule = s.schedule := rfl
@[simp] theorem State.latchSend_turns (v : Variant) (hc : HouseCode) (ad cm da : Byte) :
    (s.latchSend v hc ad cm da).turns = s.turns := rfl

@[simp] theorem State.latchTune_params (k : Kind) (v : Byte) :
    (s.latchTune k v).params = s.params := rfl
@[simp] theorem State.latchTune_command (k : Kind) (v : Byte) :
    (s.latchTune k v).command = { s.command with val := v, kind := k } := rfl
@[simp] theorem State.latchTune_tcnt (k : Kind) (v : Byte) : (s.latchTune k v).tcnt = s.tcnt := rfl
@[simp] theorem State.latchTune_config (k : Kind) (v : Byte) :
    (s.latchTune k v).config = s.config := rfl
@[simp] theorem State.latchTune_capture (k : Kind) (v : Byte) :
    (s.latchTune k v).capture = s.capture := rfl
@[simp] theorem State.latchTune_rx (k : Kind) (v : Byte) : (s.latchTune k v).rx = s.rx := rfl
@[simp] theorem State.latchTune_radio (k : Kind) (v : Byte) :
    (s.latchTune k v).radio = s.radio := rfl
@[simp] theorem State.latchTune_port (k : Kind) (v : Byte) : (s.latchTune k v).port = s.port := rfl
@[simp] theorem State.latchTune_cfgData (k : Kind) (v : Byte) :
    (s.latchTune k v).cfgData = s.cfgData := rfl
@[simp] theorem State.latchTune_txTrace (k : Kind) (v : Byte) :
    (s.latchTune k v).txTrace = s.txTrace := rfl
@[simp] theorem State.latchTune_rxTrace (k : Kind) (v : Byte) :
    (s.latchTune k v).rxTrace = s.rxTrace := rfl
@[simp] theorem State.latchTune_results (k : Kind) (v : Byte) :
    (s.latchTune k v).results = s.results := rfl
@[simp] theorem State.latchTune_schedule (k : Kind) (v : Byte) :
    (s.latchTune k v).schedule = s.schedule := rfl
@[simp] theorem State.latchTune_turns (k : Kind) (v : Byte) :
    (s.latchTune k v).turns = s.turns := rfl

@[simp] theorem State.setDebug_params (v : Byte) : (s.setDebug v).params = s.params := rfl
@[simp] theorem State.setDebug_command (v : Byte) :
    (s.setDebug v).command = { s.command with debug := v } := rfl
@[simp] theorem State.setDebug_tcnt (v : Byte) : (s.setDebug v).tcnt = s.tcnt := rfl
@[simp] theorem State.setDebug_config (v : Byte) : (s.setDebug v).config = s.config := rfl
@[simp] theorem State.setDebug_capture (v : Byte) : (s.setDebug v).capture = s.capture := rfl
@[simp] theorem State.setDebug_rx (v : Byte) : (s.setDebug v).rx = s.rx := rfl
@[simp] theorem State.setDebug_radio (v : Byte) : (s.setDebug v).radio = s.radio := rfl
@[simp] theorem State.setDebug_port (v : Byte) : (s.setDebug v).port = s.port := rfl
@[simp] theorem State.setDebug_cfgData (v : Byte) : (s.setDebug v).cfgData = s.cfgData := rfl
@[simp] theorem State.setDebug_txTrace (v : Byte) : (s.setDebug v).txTrace = s.txTrace := rfl
@[simp] theorem State.setDebug_rxTrace (v : Byte) : (s.setDebug v).rxTrace = s.rxTrace := rfl
@[simp] theorem State.setDebug_results (v : Byte) : (s.setDebug v).results = s.results := rfl
@[simp] theorem State.setDebug_schedule (v : Byte) : (s.setDebug v).schedule = s.schedule := rfl
@[simp] theorem State.setDebug_turns (v : Byte) : (s.setDebug v).turns = s.turns := rfl

@[simp] theorem State.startSend_params (v : Variant) (hc : HouseCode) (ad cm da : Byte) :
    (s.startSend v hc ad cm da).params = s.params := rfl
@[simp] theorem State.startSend_command (v : Variant) (hc : HouseCode) (ad cm da : Byte) :
    (s.startSend v hc ad cm da).command = { s.command with var := v, hc := hc, addr := ad, cmd := cm, data := da, kind := .send, busy := true, seq := { st := .txBegin, rep := 0, idx := 0 } } := rfl
@[simp] theorem State.startSend_tcnt (v : Variant) (hc : HouseCode) (ad cm da : Byte) :
    (s.startSend v hc ad cm da).tcnt = s.tcnt := rfl
@[simp] theorem State.startSend_config (v : Variant) (hc : HouseCode) (ad cm da : Byte) :
    (s.startSend v hc ad cm da).config = s.config := rfl
@[simp] theorem State.startSend_capture (v : Variant) (hc : HouseCode) (ad cm da : Byte) :
    (s.startSend v hc ad cm da).capture = s.capture := rfl
@[simp] theorem State.startSend_rx (v : Variant) (hc : HouseCode) (ad cm da : Byte) :
    (s.startSend v hc ad cm da).rx = s.rx := rfl
@[simp] theorem State.startSend_radio (v : Variant) (hc : HouseCode) (ad cm da : Byte) :
    (s.startSend v hc ad cm da).radio = s.radio := rfl
@[simp] theorem State.startSend_port (v : Variant) (hc : HouseCode) (ad cm da : Byte) :
    (s.startSend v hc ad cm da).port = s.port := rfl
@[simp] theorem State.startSend_cfgData (v : Variant) (hc : HouseCode) (ad cm da : Byte) :
    (s.startSend v hc ad cm da).cfgData = s.cfgData := rfl
@[simp] theorem State.startSend_txTrace (v : Variant) (hc : HouseCode) (ad cm da : Byte) :
    (s.startSend v hc ad cm da).txTrace = s.txTrace := rfl
@[simp] theorem State.startSend_rxTrace (v : Variant) (hc : HouseCode) (ad cm da : Byte) :
    (s.startSend v hc ad cm da).rxTrace = s.rxTrace := rfl
@[simp] theorem State.startSend_results (v : Variant) (hc : HouseCode) (ad cm da : Byte) :
    (s.startSend v hc ad cm da).results = s.results := rfl
@[simp] theorem State.startSend_schedule (v : Variant) (hc : HouseCode) (ad cm da : Byte) :
    (s.startSend v hc ad cm da).schedule = s.schedule := rfl
@[simp] theorem State.startSend_turns (v : Variant) (hc : HouseCode) (ad cm da : Byte) :
    (s.startSend v hc ad cm da).turns = s.turns := rfl

@[simp] theorem State.startTune_params (k : Kind) (v : Byte) :
    (s.startTune k v).params = s.params := rfl
@[simp] theorem State.startTune_command (k : Kind) (v : Byte) :
    (s.startTune k v).command = { s.command with val := v, kind := k, busy := true, seq := { st := .tune, rep := 0, idx := 0 } } := rfl
@[simp] theorem State.startTune_tcnt (k : Kind) (v : Byte) : (s.startTune k v).tcnt = s.tcnt := rfl
@[simp] theorem State.startTune_config (k : Kind) (v : Byte) :
    (s.startTune k v).config = s.config := rfl
@[simp] theorem State.startTune_capture (k : Kind) (v : Byte) :
    (s.startTune k v).capture = s.capture := rfl
@[simp] theorem State.startTune_rx (k : Kind) (v : Byte) : (s.startTune k v).rx = s.rx := rfl
@[simp] theorem State.startTune_radio (k : Kind) (v : Byte) :
    (s.startTune k v).radio = s.radio := rfl
@[simp] theorem State.startTune_port (k : Kind) (v : Byte) : (s.startTune k v).port = s.port := rfl
@[simp] theorem State.startTune_cfgData (k : Kind) (v : Byte) :
    (s.startTune k v).cfgData = s.cfgData := rfl
@[simp] theorem State.startTune_txTrace (k : Kind) (v : Byte) :
    (s.startTune k v).txTrace = s.txTrace := rfl
@[simp] theorem State.startTune_rxTrace (k : Kind) (v : Byte) :
    (s.startTune k v).rxTrace = s.rxTrace := rfl
@[simp] theorem State.startTune_results (k : Kind) (v : Byte) :
    (s.startTune k v).results = s.results := rfl
@[simp] theorem State.startTune_schedule (k : Kind) (v : Byte) :
    (s.startTune k v).schedule = s.schedule := rfl
@[simp] theorem State.startTune_turns (k : Kind) (v : Byte) :
    (s.startTune k v).turns = s.turns := rfl

@[simp] theorem State.finish_params : (s.finish).params = s.params := rfl
@[simp] theorem State.finish_command :
    (s.finish).command = { s.command with busy := false, seq := { st := .idle, rep := 0, idx := 0 } } := rfl
@[simp] theorem State.finish_tcnt : (s.finish).tcnt = s.tcnt := rfl
@[simp] theorem State.finish_config : (s.finish).config = s.config := rfl
@[simp] theorem State.finish_capture : (s.finish).capture = s.capture := rfl
@[simp] theorem State.finish_rx : (s.finish).rx = s.rx := rfl
@[simp] theorem State.finish_radio : (s.finish).radio = s.radio := rfl
@[simp] theorem State.finish_port : (s.finish).port = s.port := rfl
@[simp] theorem State.finish_cfgData : (s.finish).cfgData = s.cfgData := rfl
@[simp] theorem State.finish_txTrace : (s.finish).txTrace = s.txTrace := rfl
@[simp] theorem State.finish_rxTrace : (s.finish).rxTrace = s.rxTrace := rfl
@[simp] theorem State.finish_results : (s.finish).results = s.results ++ [.ok] := rfl
@[simp] theorem State.finish_schedule : (s.finish).schedule = s.schedule := rfl
@[simp] theorem State.finish_turns : (s.finish).turns = s.turns := rfl

@[simp] theorem State.enterHandler_params (src : Source) (e : DecEvent) :
    (s.enterHandler src e).params = s.params := rfl
@[simp] theorem State.enterHandler_command (src : Source) (e : DecEvent) :
    (s.enterHandler src e).command = s.command := rfl
@[simp] theorem State.enterHandler_tcnt (src : Source) (e : DecEvent) :
    (s.enterHandler src e).tcnt = s.tcnt := rfl
@[simp] theorem State.enterHandler_config (src : Source) (e : DecEvent) :
    (s.enterHandler src e).config = s.config := rfl
@[simp] theorem State.enterHandler_capture (src : Source) (e : DecEvent) :
    (s.enterHandler src e).capture = { s.capture with edgePend := s.capture.edgePend && src != .edge, cmpPend := s.capture.cmpPend && src != .cmp, inIrq := true } := rfl
@[simp] theorem State.enterHandler_rx (src : Source) (e : DecEvent) :
    (s.enterHandler src e).rx = s.rx := rfl
@[simp] theorem State.enterHandler_radio (src : Source) (e : DecEvent) :
    (s.enterHandler src e).radio = s.radio := rfl
@[simp] theorem State.enterHandler_port (src : Source) (e : DecEvent) :
    (s.enterHandler src e).port = s.port := rfl
@[simp] theorem State.enterHandler_cfgData (src : Source) (e : DecEvent) :
    (s.enterHandler src e).cfgData = s.cfgData := rfl
@[simp] theorem State.enterHandler_txTrace (src : Source) (e : DecEvent) :
    (s.enterHandler src e).txTrace = s.txTrace := rfl
@[simp] theorem State.enterHandler_rxTrace (src : Source) (e : DecEvent) :
    (s.enterHandler src e).rxTrace = s.rxTrace ++ [e] := rfl
@[simp] theorem State.enterHandler_results (src : Source) (e : DecEvent) :
    (s.enterHandler src e).results = s.results := rfl
@[simp] theorem State.enterHandler_schedule (src : Source) (e : DecEvent) :
    (s.enterHandler src e).schedule = s.schedule := rfl
@[simp] theorem State.enterHandler_turns (src : Source) (e : DecEvent) :
    (s.enterHandler src e).turns = s.turns := rfl

@[simp] theorem State.leaveHandler_params : (s.leaveHandler).params = s.params := rfl
@[simp] theorem State.leaveHandler_command : (s.leaveHandler).command = s.command := rfl
@[simp] theorem State.leaveHandler_tcnt : (s.leaveHandler).tcnt = s.tcnt := rfl
@[simp] theorem State.leaveHandler_config : (s.leaveHandler).config = s.config := rfl
@[simp] theorem State.leaveHandler_capture :
    (s.leaveHandler).capture = { s.capture with inIrq := false } := rfl
@[simp] theorem State.leaveHandler_rx : (s.leaveHandler).rx = s.rx := rfl
@[simp] theorem State.leaveHandler_radio : (s.leaveHandler).radio = s.radio := rfl
@[simp] theorem State.leaveHandler_port : (s.leaveHandler).port = s.port := rfl
@[simp] theorem State.leaveHandler_cfgData : (s.leaveHandler).cfgData = s.cfgData := rfl
@[simp] theorem State.leaveHandler_txTrace : (s.leaveHandler).txTrace = s.txTrace := rfl
@[simp] theorem State.leaveHandler_rxTrace : (s.leaveHandler).rxTrace = s.rxTrace := rfl
@[simp] theorem State.leaveHandler_results : (s.leaveHandler).results = s.results := rfl
@[simp] theorem State.leaveHandler_schedule : (s.leaveHandler).schedule = s.schedule := rfl
@[simp] theorem State.leaveHandler_turns : (s.leaveHandler).turns = s.turns := rfl

@[simp] theorem State.advanceCounter_params : (s.advanceCounter).params = s.params := rfl
@[simp] theorem State.advanceCounter_command : (s.advanceCounter).command = s.command := rfl
@[simp] theorem State.advanceCounter_tcnt : (s.advanceCounter).tcnt = s.tcnt + 1 := rfl
@[simp] theorem State.advanceCounter_config : (s.advanceCounter).config = s.config := rfl
@[simp] theorem State.advanceCounter_capture : (s.advanceCounter).capture = s.capture := rfl
@[simp] theorem State.advanceCounter_rx : (s.advanceCounter).rx = s.rx := rfl
@[simp] theorem State.advanceCounter_radio : (s.advanceCounter).radio = s.radio := rfl
@[simp] theorem State.advanceCounter_port : (s.advanceCounter).port = s.port := rfl
@[simp] theorem State.advanceCounter_cfgData : (s.advanceCounter).cfgData = s.cfgData := rfl
@[simp] theorem State.advanceCounter_txTrace : (s.advanceCounter).txTrace = s.txTrace := rfl
@[simp] theorem State.advanceCounter_rxTrace : (s.advanceCounter).rxTrace = s.rxTrace := rfl
@[simp] theorem State.advanceCounter_results : (s.advanceCounter).results = s.results := rfl
@[simp] theorem State.advanceCounter_schedule : (s.advanceCounter).schedule = s.schedule := rfl
@[simp] theorem State.advanceCounter_turns : (s.advanceCounter).turns = s.turns := rfl

@[simp] theorem State.toggleRx_params : (s.toggleRx).params = s.params := rfl
@[simp] theorem State.toggleRx_command : (s.toggleRx).command = s.command := rfl
@[simp] theorem State.toggleRx_tcnt : (s.toggleRx).tcnt = s.tcnt := rfl
@[simp] theorem State.toggleRx_config : (s.toggleRx).config = s.config := rfl
@[simp] theorem State.toggleRx_capture : (s.toggleRx).capture = s.capture := rfl
@[simp] theorem State.toggleRx_rx : (s.toggleRx).rx = !s.rx := rfl
@[simp] theorem State.toggleRx_radio : (s.toggleRx).radio = s.radio := rfl
@[simp] theorem State.toggleRx_port : (s.toggleRx).port = s.port := rfl
@[simp] theorem State.toggleRx_cfgData : (s.toggleRx).cfgData = s.cfgData := rfl
@[simp] theorem State.toggleRx_txTrace : (s.toggleRx).txTrace = s.txTrace := rfl
@[simp] theorem State.toggleRx_rxTrace : (s.toggleRx).rxTrace = s.rxTrace := rfl
@[simp] theorem State.toggleRx_results : (s.toggleRx).results = s.results := rfl
@[simp] theorem State.toggleRx_schedule : (s.toggleRx).schedule = s.schedule := rfl
@[simp] theorem State.toggleRx_turns : (s.toggleRx).turns = s.turns := rfl

@[simp] theorem State.takeWord_params : (s.takeWord).params = s.params := rfl
@[simp] theorem State.takeWord_command : (s.takeWord).command = s.command := rfl
@[simp] theorem State.takeWord_tcnt : (s.takeWord).tcnt = s.tcnt := rfl
@[simp] theorem State.takeWord_config : (s.takeWord).config = s.config := rfl
@[simp] theorem State.takeWord_capture : (s.takeWord).capture = s.capture := rfl
@[simp] theorem State.takeWord_rx : (s.takeWord).rx = s.rx := rfl
@[simp] theorem State.takeWord_radio : (s.takeWord).radio = s.radio := rfl
@[simp] theorem State.takeWord_port : (s.takeWord).port = none := rfl
@[simp] theorem State.takeWord_cfgData : (s.takeWord).cfgData = s.cfgData := rfl
@[simp] theorem State.takeWord_txTrace : (s.takeWord).txTrace = s.txTrace := rfl
@[simp] theorem State.takeWord_rxTrace : (s.takeWord).rxTrace = s.rxTrace := rfl
@[simp] theorem State.takeWord_results : (s.takeWord).results = s.results := rfl
@[simp] theorem State.takeWord_schedule : (s.takeWord).schedule = s.schedule := rfl
@[simp] theorem State.takeWord_turns : (s.takeWord).turns = s.turns := rfl

/-! Updates that branch: raising an interrupt, mirroring the level, reading the schedule. -/

@[simp] theorem State.raiseInterrupt_params (src : Source) :
    (s.raiseInterrupt src).params = s.params := by
  cases src <;> simp only [State.raiseInterrupt] <;> split <;> rfl
@[simp] theorem State.mirrorEdge_params (r : Bool) : (s.mirrorEdge r).params = s.params := by
  simp only [State.mirrorEdge]; split <;> rfl
@[simp] theorem State.dropMove_params : s.dropMove.params = s.params := by
  simp only [State.dropMove]; split <;> rfl
@[simp] theorem State.raiseInterrupt_command (src : Source) :
    (s.raiseInterrupt src).command = s.command := by
  cases src <;> simp only [State.raiseInterrupt] <;> split <;> rfl
@[simp] theorem State.mirrorEdge_command (r : Bool) : (s.mirrorEdge r).command = s.command := by
  simp only [State.mirrorEdge]; split <;> rfl
@[simp] theorem State.dropMove_command : s.dropMove.command = s.command := by
  simp only [State.dropMove]; split <;> rfl
@[simp] theorem State.raiseInterrupt_tcnt (src : Source) :
    (s.raiseInterrupt src).tcnt = s.tcnt := by
  cases src <;> simp only [State.raiseInterrupt] <;> split <;> rfl
@[simp] theorem State.mirrorEdge_tcnt (r : Bool) : (s.mirrorEdge r).tcnt = s.tcnt := by
  simp only [State.mirrorEdge]; split <;> rfl
@[simp] theorem State.dropMove_tcnt : s.dropMove.tcnt = s.tcnt := by
  simp only [State.dropMove]; split <;> rfl
@[simp] theorem State.raiseInterrupt_config (src : Source) :
    (s.raiseInterrupt src).config = s.config := by
  cases src <;> simp only [State.raiseInterrupt] <;> split <;> rfl
@[simp] theorem State.mirrorEdge_config (r : Bool) : (s.mirrorEdge r).config = s.config := by
  simp only [State.mirrorEdge]; split <;> rfl
@[simp] theorem State.dropMove_config : s.dropMove.config = s.config := by
  simp only [State.dropMove]; split <;> rfl
@[simp] theorem State.dropMove_capture : s.dropMove.capture = s.capture := by
  simp only [State.dropMove]; split <;> rfl
@[simp] theorem State.raiseInterrupt_rx (src : Source) :
    (s.raiseInterrupt src).rx = s.rx := by
  cases src <;> simp only [State.raiseInterrupt] <;> split <;> rfl
@[simp] theorem State.mirrorEdge_rx (r : Bool) : (s.mirrorEdge r).rx = s.rx := by
  simp only [State.mirrorEdge]; split <;> rfl
@[simp] theorem State.dropMove_rx : s.dropMove.rx = s.rx := by
  simp only [State.dropMove]; split <;> rfl
@[simp] theorem State.raiseInterrupt_radio (src : Source) :
    (s.raiseInterrupt src).radio = s.radio := by
  cases src <;> simp only [State.raiseInterrupt] <;> split <;> rfl
@[simp] theorem State.mirrorEdge_radio (r : Bool) : (s.mirrorEdge r).radio = s.radio := by
  simp only [State.mirrorEdge]; split <;> rfl
@[simp] theorem State.dropMove_radio : s.dropMove.radio = s.radio := by
  simp only [State.dropMove]; split <;> rfl
@[simp] theorem State.raiseInterrupt_port (src : Source) :
    (s.raiseInterrupt src).port = s.port := by
  cases src <;> simp only [State.raiseInterrupt] <;> split <;> rfl
@[simp] theorem State.mirrorEdge_port (r : Bool) : (s.mirrorEdge r).port = s.port := by
  simp only [State.mirrorEdge]; split <;> rfl
@[simp] theorem State.dropMove_port : s.dropMove.port = s.port := by
  simp only [State.dropMove]; split <;> rfl
@[simp] theorem State.raiseInterrupt_cfgData (src : Source) :
    (s.raiseInterrupt src).cfgData = s.cfgData := by
  cases src <;> simp only [State.raiseInterrupt] <;> split <;> rfl
@[simp] theorem State.mirrorEdge_cfgData (r : Bool) : (s.mirrorEdge r).cfgData = s.cfgData := by
  simp only [State.mirrorEdge]; split <;> rfl
@[simp] theorem State.dropMove_cfgData : s.dropMove.cfgData = s.cfgData := by
  simp only [State.dropMove]; split <;> rfl
@[simp] theorem State.raiseInterrupt_txTrace (src : Source) :
    (s.raiseInterrupt src).txTrace = s.txTrace := by
  cases src <;> simp only [State.raiseInterrupt] <;> split <;> rfl
@[simp] theorem State.mirrorEdge_txTrace (r : Bool) : (s.mirrorEdge r).txTrace = s.txTrace := by
  simp only [State.mirrorEdge]; split <;> rfl
@[simp] theorem State.dropMove_txTrace : s.dropMove.txTrace = s.txTrace := by
  simp only [State.dropMove]; split <;> rfl
@[simp] theorem State.raiseInterrupt_rxTrace (src : Source) :
    (s.raiseInterrupt src).rxTrace = s.rxTrace := by
  cases src <;> simp only [State.raiseInterrupt] <;> split <;> rfl
@[simp] theorem State.mirrorEdge_rxTrace (r : Bool) : (s.mirrorEdge r).rxTrace = s.rxTrace := by
  simp only [State.mirrorEdge]; split <;> rfl
@[simp] theorem State.dropMove_rxTrace : s.dropMove.rxTrace = s.rxTrace := by
  simp only [State.dropMove]; split <;> rfl
@[simp] theorem State.raiseInterrupt_results (src : Source) :
    (s.raiseInterrupt src).results = s.results := by
  cases src <;> simp only [State.raiseInterrupt] <;> split <;> rfl
@[simp] theorem State.mirrorEdge_results (r : Bool) : (s.mirrorEdge r).results = s.results := by
  simp only [State.mirrorEdge]; split <;> rfl
@[simp] theorem State.dropMove_results : s.dropMove.results = s.results := by
  simp only [State.dropMove]; split <;> rfl
@[simp] theorem State.raiseInterrupt_schedule (src : Source) :
    (s.raiseInterrupt src).schedule = s.schedule := by
  cases src <;> simp only [State.raiseInterrupt] <;> split <;> rfl
@[simp] theorem State.mirrorEdge_schedule (r : Bool) : (s.mirrorEdge r).schedule = s.schedule := by
  simp only [State.mirrorEdge]; split <;> rfl
@[simp] theorem State.raiseInterrupt_turns (src : Source) :
    (s.raiseInterrupt src).turns = s.turns := by
  cases src <;> simp only [State.raiseInterrupt] <;> split <;> rfl
@[simp] theorem State.mirrorEdge_turns (r : Bool) : (s.mirrorEdge r).turns = s.turns := by
  simp only [State.mirrorEdge]; split <;> rfl

end Sys2Proof.Machine
end

