-- ==== Sys2Proof/Laws/Turns.lean ====
section
/-! SUPPORT. Everything each shared operation and each agent's turn can do, said once: the inversion
lemmas that proofs about steps and runs cite instead of unfolding the machine. -/

namespace Sys2Proof.Machine

/-! ### Commands at their accept step -/

/-- What a command's accept step can answer: a send begins, a tuning step begins, the debug flag is
set, or `ParseError`. -/
theorem exec_inv {i : Instr} {s t : State} (h : exec i s = .next t) :
    (∃ v hc ad cm da, t = s.startSend v hc ad cm da)
      ∨ (∃ k v, k ≠ Kind.send ∧ t = s.startTune k v)
      ∨ (∃ v, s.params.debugBuild = true ∧ t = (s.setDebug v).emitResult .ok)
      ∨ t = s.emitResult .parseError := by
  cases i with
  | sendA hc ad cm da => cases h; exact .inl ⟨_, _, _, _, _, rfl⟩
  | sendB hc ad cm da =>
    simp only [exec, execSendB, raiseParseError] at h
    split at h <;> cases h
    · exact .inl ⟨_, _, _, _, _, rfl⟩
    · exact .inr (.inr (.inr rfl))
  | setGain v => cases h; exact .inr (.inl ⟨_, _, by simp, rfl⟩)
  | setDrssi v => cases h; exact .inr (.inl ⟨_, _, by simp, rfl⟩)
  | setDebug v =>
    simp only [exec, execSetDebug, raiseParseError] at h
    split at h <;> rename_i hd <;> cases h
    · exact .inr (.inr (.inl ⟨v, hd, rfl⟩))
    · exact .inr (.inr (.inr rfl))

/-- No command faults or is refused. -/
theorem exec_total (i : Instr) (s : State) : ∃ t, exec i s = .next t := by
  cases i <;> simp only [exec, execSendA, execSendB, execSetGain, execSetDrssi, execSetDebug,
    raiseParseError] <;> first | exact ⟨_, rfl⟩ | (split <;> exact ⟨_, rfl⟩)

/-- The accept step answers what its command does, or `ParseError`. -/
theorem accept_inv {w : CommandWord} {s t : State} (h : accept w s = .next t) :
    (∃ v hc ad cm da, t = s.startSend v hc ad cm da)
      ∨ (∃ k v, k ≠ Kind.send ∧ t = s.startTune k v)
      ∨ (∃ v, s.params.debugBuild = true ∧ t = (s.setDebug v).emitResult .ok)
      ∨ t = s.emitResult .parseError := by
  simp only [accept] at h
  split at h
  · exact exec_inv h
  · cases h; exact .inr (.inr (.inr rfl))

theorem accept_total (w : CommandWord) (s : State) : ∃ t, accept w s = .next t := by
  simp only [accept]
  split
  · exact exec_total _ _
  · exact ⟨_, rfl⟩

/-! ### The Command agent -/

/-- What the Command agent's turn can do: nothing, the accept step, or the step that `SEQ` names. -/
theorem commandTurn_inv {s t : State} (h : commandTurn s = .next t) :
    t = s
      ∨ s.capture.initDone = true ∧
        ((s.command.busy = false ∧ s.command.seq.st = .idle
            ∧ ∃ w, s.port = some w ∧ accept w s.takeWord = .next t)
          ∨ (s.command.seq.st = .txBegin ∧ t = txBegin s)
          ∨ (s.command.seq.st = .txOn ∧ ∃ b, s.currentBit = some b
              ∧ t = (s.rlKey true (onDuration b)).goTo .txOff s.command.seq.rep s.command.seq.idx)
          ∨ (s.command.seq.st = .txOff ∧ ∃ b, s.currentBit = some b
              ∧ t = afterOffPulse (s.rlKey false (offDuration b)) s.command.seq)
          ∨ (s.command.seq.st = .txEnd ∧ t = txEnd s)
          ∨ (s.command.seq.st = .txDelay ∧ t = txDelay s)
          ∨ (s.command.seq.st = .txReact ∧ t = txReact s)
          ∨ (s.command.seq.st = .tune ∧ t = tune s)) := by
  simp only [commandTurn] at h
  split at h
  case isFalse => cases h; exact .inl rfl
  case isTrue hi =>
    split at h
    case h_1 hst =>
      simp only [acceptTurn] at h
      split at h
      case isFalse => cases h; exact .inl rfl
      case isTrue ha =>
        simp only [acceptEnabled, Bool.and_eq_true, Bool.not_eq_true'] at ha
        split at h
        case h_1 w hw => exact .inr ⟨hi, .inl ⟨ha.1.2, hst, w, hw, h⟩⟩
        case h_2 => cases h; exact .inl rfl
    case h_2 hst => cases h; exact .inr ⟨hi, .inr (.inl ⟨hst, rfl⟩)⟩
    case h_3 hst =>
      simp only [txOn] at h
      split at h <;> cases h
      case h_1 b hb => exact .inr ⟨hi, .inr (.inr (.inl ⟨hst, b, hb, rfl⟩))⟩
    case h_4 hst =>
      simp only [txOff] at h
      split at h <;> cases h
      case h_1 b hb => exact .inr ⟨hi, .inr (.inr (.inr (.inl ⟨hst, b, hb, rfl⟩)))⟩
    case h_5 hst => cases h; exact .inr ⟨hi, .inr (.inr (.inr (.inr (.inl ⟨hst, rfl⟩))))⟩
    case h_6 hst => cases h; exact .inr ⟨hi, .inr (.inr (.inr (.inr (.inr (.inl ⟨hst, rfl⟩)))))⟩
    case h_7 hst =>
      cases h; exact .inr ⟨hi, .inr (.inr (.inr (.inr (.inr (.inr (.inl ⟨hst, rfl⟩))))))⟩
    case h_8 hst =>
      cases h; exact .inr ⟨hi, .inr (.inr (.inr (.inr (.inr (.inr (.inr ⟨hst, rfl⟩))))))⟩

/-- Where the sequencer goes after an off-pulse. -/
theorem afterOffPulse_cases (s : State) (q : Seq) :
    (q.idx + 1 < s.frame.length ∧ afterOffPulse s q = s.goTo .txOn q.rep (q.idx + 1))
      ∨ (s.frame.length ≤ q.idx + 1 ∧ afterOffPulse s q = s.goTo .txEnd q.rep q.idx) := by
  simp only [afterOffPulse]
  split
  · exact .inl ⟨‹_›, rfl⟩
  · exact .inr ⟨by omega, rfl⟩

/-- Where the sequencer goes after a wait. -/
theorem txDelay_cases (s : State) :
    (s.command.seq.rep < 2
        ∧ txDelay s = (s.delayUs repeatDelayUs).goTo .txBegin (s.command.seq.rep + 1) 0)
      ∨ (2 ≤ s.command.seq.rep ∧ txDelay s = (s.delayUs repeatDelayUs).goTo .txReact 2 0) := by
  simp only [txDelay]
  split
  · exact .inl ⟨‹_›, rfl⟩
  · exact .inr ⟨by omega, rfl⟩

/-! ### The receive side -/

/-- What raising an interrupt does to the Capture agent. -/
theorem raiseInterrupt_capture (s : State) (src : Source) :
    ((s.raiseInterrupt src).capture = s.capture
        ∧ (src = .edge ∧ s.capture.edgePend = true ∨ src = .cmp ∧ s.capture.cmpPend = true))
      ∨ (src = .edge ∧ s.capture.edgePend = false ∧ (s.raiseInterrupt src).capture =
          { s.capture with edgePend := true,
                           first := if s.capture.cmpPend then .cmp else s.capture.first })
      ∨ (src = .cmp ∧ s.capture.cmpPend = false ∧ (s.raiseInterrupt src).capture =
          { s.capture with cmpPend := true,
                           first := if s.capture.edgePend then .edge else s.capture.first }) := by
  cases src
  · by_cases h : s.capture.edgePend = true
    · exact .inl ⟨by simp only [State.raiseInterrupt, h, if_true], .inl ⟨rfl, h⟩⟩
    · simp only [Bool.not_eq_true] at h
      exact .inr (.inl ⟨rfl, h, by simp [State.raiseInterrupt, h]⟩)
  · by_cases h : s.capture.cmpPend = true
    · exact .inl ⟨by simp only [State.raiseInterrupt, h, if_true], .inr ⟨rfl, h⟩⟩
    · simp only [Bool.not_eq_true] at h
      exact .inr (.inr ⟨rfl, h, by simp [State.raiseInterrupt, h]⟩)

/-- A tick advances the counter and raises the compare match when it should. -/
theorem tick_cases (s : State) :
    (s.tcnt + 1 = s.config.ocr ∧ s.config.cmpIe = true
        ∧ tick s = s.advanceCounter.raiseInterrupt .cmp)
      ∨ ((s.tcnt + 1 ≠ s.config.ocr ∨ s.config.cmpIe = false) ∧ tick s = s.advanceCounter) := by
  simp only [tick, compareMatch]
  split
  · rename_i h
    by_cases hc : s.config.cmpIe = true
    · exact .inl ⟨h, hc, by simp [hc]⟩
    · exact .inr ⟨.inr (by simpa using hc), by simp [hc]⟩
  · exact .inr ⟨.inl ‹_›, rfl⟩

/-- An edge toggles the input and raises the edge interrupt when it should. -/
theorem edge_cases (s : State) :
    (s.config.edgeIe = true ∧ edge s = s.toggleRx.raiseInterrupt .edge)
      ∨ (s.config.edgeIe = false ∧ edge s = s.toggleRx) := by
  simp only [edge]
  split
  · exact .inl ⟨‹_›, rfl⟩
  · rename_i h; exact .inr ⟨by simpa using h, rfl⟩

/-- What the Capture agent's turn can do. -/
theorem captureTurn_cases (s : State) :
    (s.capture.initDone = false ∧ captureTurn s = init s)
      ∨ (s.capture.initDone = true ∧ s.capture.inIrq = true ∧ captureTurn s = s.leaveHandler)
      ∨ (edgeServiceEnabled s = true ∧ s.capture.inIrq = false ∧ captureTurn s = serviceEdge s)
      ∨ (edgeServiceEnabled s = false ∧ timeoutServiceEnabled s = true ∧ s.capture.inIrq = false
          ∧ captureTurn s = serviceTimeout s)
      ∨ (edgeServiceEnabled s = false ∧ timeoutServiceEnabled s = false
          ∧ s.capture.initDone = true ∧ s.capture.inIrq = false ∧ captureTurn s = s) := by
  rcases Bool.eq_false_or_eq_true s.capture.initDone with hi | hi
    <;> rcases Bool.eq_false_or_eq_true s.capture.inIrq with hq | hq
    <;> rcases Bool.eq_false_or_eq_true (edgeServiceEnabled s) with he | he
    <;> rcases Bool.eq_false_or_eq_true (timeoutServiceEnabled s) with ht | ht
    <;> simp [captureTurn, returnEnabled, hi, hq, he, ht]

/-- A service turn's mirror of the level. -/
theorem mirrorEdge_capture (s : State) (r : Bool) :
    (s.mirrorEdge r).capture =
      { s.capture with statusInd := if s.params.mirrorEdge then r else s.capture.statusInd } := by
  simp only [State.mirrorEdge]
  split <;> simp_all

/-! ### Turns and runs -/

@[simp] theorem takeTurn_command (s : State) : takeTurn .command s = commandTurn s := rfl
@[simp] theorem takeTurn_capture (s : State) : takeTurn .capture s = .next (captureTurn s) := rfl
@[simp] theorem takeTurn_tick (s : State) : takeTurn .tick s = .next (tick s) := rfl
@[simp] theorem takeTurn_edge (s : State) : takeTurn .edge s = .next (edge s) := rfl
@[simp] theorem takeTurn_present (w : CommandWord) (s : State) :
    takeTurn (.present w) s = .next (present w s) := rfl
@[simp] theorem takeTurn_withdraw (s : State) : takeTurn .withdraw s = .next (withdraw s) := rfl
@[simp] theorem takeTurn_cfgRead (n : Fin 8) (s : State) :
    takeTurn (.cfgRead n) s = .next (cfgReadTurn n s) := rfl
@[simp] theorem takeTurn_cfgWrite (n : Fin 8) (v : Byte) (s : State) :
    takeTurn (.cfgWrite n v) s = .next (cfgWriteTurn n v s) := rfl

/-- A configuration write leaves everything but the configuration master's registers. -/
theorem cfgWrite_eq (n : Fin 8) (v : Byte) (s : State) :
    cfgWrite n v s = { s with config := (cfgWrite n v s).config } := by
  simp only [cfgWrite]
  split <;> rfl

@[simp] theorem runMoves_nil (s : State) : runMoves [] s = .next s := rfl

theorem runMoves_cons_next {m : Config.Move} {ms : List Config.Move} {s t : State}
    (h : takeTurn m s = .next t) : runMoves (m :: ms) s = runMoves ms t := by
  simp only [runMoves, h]

/-- A run that answers took its first turn. -/
theorem runMoves_cons_inv {m : Config.Move} {ms : List Config.Move} {s u : State}
    (h : runMoves (m :: ms) s = .next u) :
    ∃ t, takeTurn m s = .next t ∧ runMoves ms t = .next u := by
  simp only [runMoves] at h
  split at h <;> first | exact ⟨_, ‹_›, h⟩ | cases h

/-- Any number of ticks answers. -/
theorem runMoves_ticks_total (k : Nat) (s : State) :
    ∃ t, runMoves (List.replicate k .tick) s = .next t := by
  induction k generalizing s with
  | zero => exact ⟨s, rfl⟩
  | succ k ih => exact ih (tick s)

/-- Runs compose. -/
theorem runMoves_append {ms ns : List Config.Move} {s t : State} (h : runMoves ms s = .next t) :
    runMoves (ms ++ ns) s = runMoves ns t := by
  induction ms generalizing s with
  | nil => cases h; rfl
  | cons m ms ih =>
    obtain ⟨u, hu, h⟩ := runMoves_cons_inv h
    rw [List.cons_append, runMoves_cons_next hu, ih h]

/-- A run of two parts passes through the state between them. -/
theorem runMoves_append_inv {ms ns : List Config.Move} {s u : State}
    (h : runMoves (ms ++ ns) s = .next u) :
    ∃ t, runMoves ms s = .next t ∧ runMoves ns t = .next u := by
  induction ms generalizing s with
  | nil => exact ⟨s, rfl, h⟩
  | cons m ms ih =>
    obtain ⟨v, hv, h⟩ := runMoves_cons_inv h
    obtain ⟨t, ht, h⟩ := ih h
    exact ⟨t, by rw [runMoves_cons_next hv, ht], h⟩

end Sys2Proof.Machine
end

