-- ==== Sys2Proof/Laws/Schedule.lean ====
section
/-! SUPPORT. No turn reads or writes the schedule: a turn taken under another schedule does the same.
With it, a step that takes its turn from the schedule is that turn. -/

namespace Sys2Proof.Machine

/-- The state under another schedule. -/
def State.withSchedule (s : State) (ms : List Config.Move) : State := { s with schedule := ms }

/-- An outcome with its next state under another schedule. -/
def outcomeWithSchedule (ms : List Config.Move) :
    Host.Outcome State Fault Refusal → Host.Outcome State Fault Refusal
  | .next t => .next (t.withSchedule ms)
  | .fault r => .fault r
  | .refused r => .refused r

section
variable (s : State) (ms : List Config.Move)

@[simp] theorem State.withSchedule_params : (s.withSchedule ms).params = s.params := rfl
@[simp] theorem State.withSchedule_command : (s.withSchedule ms).command = s.command := rfl
@[simp] theorem State.withSchedule_tcnt : (s.withSchedule ms).tcnt = s.tcnt := rfl
@[simp] theorem State.withSchedule_config : (s.withSchedule ms).config = s.config := rfl
@[simp] theorem State.withSchedule_capture : (s.withSchedule ms).capture = s.capture := rfl
@[simp] theorem State.withSchedule_rx : (s.withSchedule ms).rx = s.rx := rfl
@[simp] theorem State.withSchedule_radio : (s.withSchedule ms).radio = s.radio := rfl
@[simp] theorem State.withSchedule_port : (s.withSchedule ms).port = s.port := rfl
@[simp] theorem State.withSchedule_cfgData : (s.withSchedule ms).cfgData = s.cfgData := rfl
@[simp] theorem State.withSchedule_txTrace : (s.withSchedule ms).txTrace = s.txTrace := rfl
@[simp] theorem State.withSchedule_rxTrace : (s.withSchedule ms).rxTrace = s.rxTrace := rfl
@[simp] theorem State.withSchedule_results : (s.withSchedule ms).results = s.results := rfl
@[simp] theorem State.withSchedule_turns : (s.withSchedule ms).turns = s.turns := rfl

theorem withSchedule_ite (c : Prop) [Decidable c] (a b : State) :
    (if c then a else b).withSchedule ms
      = if c then a.withSchedule ms else b.withSchedule ms := by
  split <;> rfl

theorem outcomeWithSchedule_ite (c : Prop) [Decidable c]
    (a b : Host.Outcome State Fault Refusal) :
    outcomeWithSchedule ms (if c then a else b)
      = if c then outcomeWithSchedule ms a else outcomeWithSchedule ms b := by
  split <;> rfl

theorem raiseInterrupt_withSchedule (src : Source) :
    (s.withSchedule ms).raiseInterrupt src = (s.raiseInterrupt src).withSchedule ms := by
  cases src <;> simp only [State.raiseInterrupt, withSchedule_ite] <;> rfl

theorem tick_withSchedule : tick (s.withSchedule ms) = (tick s).withSchedule ms := by
  simp only [tick, compareMatch, withSchedule_ite, ← raiseInterrupt_withSchedule]
  rfl

theorem edge_withSchedule : edge (s.withSchedule ms) = (edge s).withSchedule ms := by
  simp only [edge, withSchedule_ite, ← raiseInterrupt_withSchedule]
  rfl

theorem mirrorEdge_withSchedule (r : Bool) :
    (s.withSchedule ms).mirrorEdge r = (s.mirrorEdge r).withSchedule ms := by
  simp only [State.mirrorEdge, withSchedule_ite]
  rfl

theorem serviceEdge_withSchedule :
    serviceEdge (s.withSchedule ms) = (serviceEdge s).withSchedule ms := by
  simp only [serviceEdge, mirrorEdge_withSchedule]
  rfl

theorem captureTurn_withSchedule :
    captureTurn (s.withSchedule ms) = (captureTurn s).withSchedule ms := by
  simp only [captureTurn, withSchedule_ite, ← serviceEdge_withSchedule]
  rfl

theorem exec_withSchedule (i : Instr) :
    exec i (s.withSchedule ms) = outcomeWithSchedule ms (exec i s) := by
  cases i <;> simp only [exec, execSendA, execSendB, execSetGain, execSetDrssi, execSetDebug,
    raiseParseError, outcomeWithSchedule_ite] <;> rfl

theorem accept_withSchedule (w : CommandWord) :
    accept w (s.withSchedule ms) = outcomeWithSchedule ms (accept w s) := by
  have h := exec_withSchedule s ms
  simp only [accept, show (s.withSchedule ms).params = s.params from rfl]
  cases decode s.params w with
  | ok i => exact h i
  | error e => rfl

theorem acceptTurn_withSchedule :
    acceptTurn (s.withSchedule ms) = outcomeWithSchedule ms (acceptTurn s) := by
  have hp : (s.withSchedule ms).port = s.port := rfl
  simp only [acceptTurn, outcomeWithSchedule_ite, hp]
  cases hw : s.port with
  | some w =>
    have h := accept_withSchedule s.takeWord ms w
    simp only [← h]
    rfl
  | none => rfl

theorem txOn_withSchedule : txOn (s.withSchedule ms) = outcomeWithSchedule ms (txOn s) := by
  simp only [txOn, show (s.withSchedule ms).currentBit = s.currentBit from rfl]
  cases s.currentBit <;> rfl

theorem afterOffPulse_withSchedule (q : Seq) :
    afterOffPulse (s.withSchedule ms) q = (afterOffPulse s q).withSchedule ms := by
  simp only [afterOffPulse, withSchedule_ite]
  rfl

theorem txOff_withSchedule : txOff (s.withSchedule ms) = outcomeWithSchedule ms (txOff s) := by
  simp only [txOff, show (s.withSchedule ms).currentBit = s.currentBit from rfl]
  cases s.currentBit with
  | none => rfl
  | some b =>
    exact congrArg Host.Outcome.next
      (afterOffPulse_withSchedule (s.rlKey false (offDuration b)) ms s.command.seq)

theorem txDelay_withSchedule : txDelay (s.withSchedule ms) = (txDelay s).withSchedule ms := by
  simp only [txDelay, withSchedule_ite]
  rfl

theorem commandTurn_withSchedule :
    commandTurn (s.withSchedule ms) = outcomeWithSchedule ms (commandTurn s) := by
  have hc : (s.withSchedule ms).command = s.command := rfl
  simp only [commandTurn, outcomeWithSchedule_ite, hc]
  cases s.command.seq.st with
  | idle => simp only [acceptTurn_withSchedule]; rfl
  | txBegin => rfl
  | txOn => simp only [txOn_withSchedule]; rfl
  | txOff => simp only [txOff_withSchedule]; rfl
  | txEnd => rfl
  | txDelay => simp only [txDelay_withSchedule]; rfl
  | txReact => rfl
  | tune => rfl

/-- No turn reads or writes the schedule. -/
theorem takeTurn_withSchedule (m : Config.Move) :
    takeTurn m (s.withSchedule ms) = outcomeWithSchedule ms (takeTurn m s) := by
  cases m with
  | command => exact commandTurn_withSchedule s ms
  | capture => exact congrArg Host.Outcome.next (captureTurn_withSchedule s ms)
  | tick => exact congrArg Host.Outcome.next (tick_withSchedule s ms)
  | edge => exact congrArg Host.Outcome.next (edge_withSchedule s ms)
  | present w => rfl
  | withdraw => rfl
  | cfgRead n =>
    simp only [takeTurn, cfgReadTurn, outcomeWithSchedule, withSchedule_ite]
    rfl
  | cfgWrite n v =>
    have h : cfgWrite n v (s.withSchedule ms) = (cfgWrite n v s).withSchedule ms := by
      simp only [cfgWrite]
      split <;> rfl
    simp only [takeTurn, cfgWriteTurn, outcomeWithSchedule, withSchedule_ite, h]
    rfl

/-- A step under a schedule that names its next turn is that turn, under the rest of it. -/
theorem step_withSchedule_cons (m : Config.Move) :
    step (s.withSchedule (m :: ms)) = takeTurn m (s.withSchedule ms) := rfl

end

end Sys2Proof.Machine
end

