-- ==== Sys2Proof/Tests/Slice0.lean ====
section
/-! SUPPORT. The model's own tests. Expected results come from 95_test_vectors.md or are worked out by
hand from the rule named; each witness theorem shows that the hypotheses of the statement it is named
after can be met. -/

namespace Sys2Proof.Tests

open Sys2Proof Sys2Proof.Machine

/-! ### Small states -/

/-- What a turn answers, in a form that can be compared. -/
def nextOf : Host.Outcome State Fault Refusal → Option State
  | .next t => some t
  | .fault _ => none
  | .refused _ => none

/-- A build without the optional commands and without the mirrored edge. -/
def leanBuild : Config.Params :=
  { Config.Params.reference with formatBEnabled := false, debugBuild := false, mirrorEdge := false }

/-- The block of a build past its init step. -/
def started (p : Config.Params) : State := init (State.resetWith p LaunchValues.zero)

/-- The reference build past init. -/
def idle : State := started Config.Params.reference

/-- The reference build with a word presented. -/
def presented (w : CommandWord) : State := { idle with port := some w }

/-- `SEND_A 0x1234 0x05 0x06 0x00` (vector V1) in execution, at a sequencer position. -/
def sending (st : St) (rep idx : Nat) : State :=
  { idle with
    command := { idle.command with
      var := .formatA, hc := 0x1234, addr := 0x05, cmd := 0x06, data := 0x00, kind := .send,
      busy := true, seq := ⟨st, rep, idx⟩ }
    radio := { idle.radio with isOpen := st.inTransaction } }

/-- A tuning command in execution, the descriptor before it (4, 1, 3) (95_test_vectors.md 2.9). -/
def tuning (k : Kind) (v : Byte) : State :=
  { idle with
    command := { idle.command with val := v, kind := k, busy := true, seq := ⟨.tune, 0, 0⟩ }
    radio := { idle.radio with desc := ⟨4, 1, 3⟩ } }

/-- Both enables set, with the counter, the compare value and the level given
(95_test_vectors.md 2.14). -/
def listening (tcnt ocr : Byte) (rx : Bool) : State :=
  { idle with tcnt := tcnt, config := ⟨ocr, true, true⟩, rx := rx }

/-- `listening` with the pending flags, `FIRST` and `IN_IRQ` given. -/
def pending (edgePend cmpPend : Bool) (first : Source) (inIrq : Bool) : State :=
  { listening 0x10 0x80 false with
    capture := ⟨edgePend, cmpPend, first, inIrq, true, false⟩ }

/-! ### Well-formedness -/

theorem test_ill_formed_sendB : (Instr.sendB 0x1234 0x05 0x06 0x00).wellFormed leanBuild = false := by
  decide

theorem test_ill_formed_setDebug : (Instr.setDebug 0xA5).wellFormed leanBuild = false := by decide

theorem test_others_well_formed :
    (Instr.sendA 0xFFFF 0xFF 0xFF 0xFF).wellFormed leanBuild = true
      ∧ (Instr.setGain 0xFF).wellFormed leanBuild = true
      ∧ (Instr.setDrssi 0xFF).wellFormed leanBuild = true := by decide

/-! ### Decoding: words written out by hand from 30_encoding.md section 1 -/

/-- Opcode `00000001`, house code `0x1234`, address `0x05`, command `0x26`, data `0x07`. -/
theorem test_decode_sendA :
    decode Config.Params.reference
      0b000000010001001000110100000001010010011000000111#48 = .ok (.sendA 0x1234 0x05 0x26 0x07) := by
  decide

theorem test_decode_sendB :
    decode Config.Params.reference
      0b000000100001001000110100000001010000011000000000#48 = .ok (.sendB 0x1234 0x05 0x06 0x00) := by
  decide

theorem test_decode_setGain :
    decode Config.Params.reference
      0b000000110000000000000000000000000000000011111111#48 = .ok (.setGain 0xFF) := by decide

theorem test_decode_setDrssi :
    decode Config.Params.reference
      0b000001000000000000000000000000000000000000000101#48 = .ok (.setDrssi 0x05) := by decide

theorem test_decode_setDebug :
    decode Config.Params.reference
      0b000001010000000000000000000000000000000010100101#48 = .ok (.setDebug 0xA5) := by decide

/-- 95_test_vectors.md 2.5: the invalid words of the reference build. -/
theorem test_decode_invalid :
    decode Config.Params.reference 0x030000000102 = .error .reservedBits
      ∧ decode Config.Params.reference 0x038000000002 = .error .reservedBits
      ∧ decode Config.Params.reference 0x0500000100A5 = .error .reservedBits
      ∧ decode Config.Params.reference 0x000000000000 = .error .reservedOpcode
      ∧ decode Config.Params.reference 0x061234050600 = .error .reservedOpcode
      ∧ decode Config.Params.reference 0xFF0000000000 = .error .reservedOpcode := by decide

/-- 95_test_vectors.md 2.5: the two build-dependent words. -/
theorem test_decode_unbuilt :
    decode leanBuild 0x021234050600 = .error .formatBNotBuilt
      ∧ decode leanBuild 0x0500000000A5 = .error .debugNotBuilt := by decide

/-- 30_encoding.md section 1: the words the encoder builds. -/
theorem test_encode_words :
    encode (.sendA 0x1234 0x05 0x26 0x07) = 0x011234052607
      ∧ encode (.setDebug 0xA5) = 0x0500000000A5 := by decide

theorem test_tableWord : decodeTableWord 48 0x040000000005 = some (.setDrssi 0x05) := by decide

/-! ### Text lines (95_test_vectors.md 2.6) -/

/-- `send-A 0x1234 0x05 0x06` and `set-gain 255`, digit by digit. -/
theorem test_text_lines :
    assemble (readLine .sendA [[1, 2, 3, 4], [0, 5], [0, 6]]) = some 0x011234050600
      ∧ assemble (readLine .setGain [[2, 5, 5]]) = some 0x0300000000FF
      ∧ assemble (readLine .setDebug [[10, 5]]) = some 0x0500000000A5 := by decide

/-- `send-A abc`, `set-gain 256`, `send-A 0x12345 0x05 0x06`. -/
theorem test_text_errors :
    assemble (readLine .sendA [[10, 11, 12]]) = none
      ∧ assemble (readLine .setGain [[2, 5, 6]]) = none
      ∧ assemble (readLine .sendA [[1, 2, 3, 4, 5], [0, 5], [0, 6]]) = none := by decide

/-! ### The Frame Encoder (95_test_vectors.md 2.1 to 2.3) -/

theorem test_checksums :
    checksum .formatA 0x1234 0x05 0x06 0x00 = 0x57 ∧ checksum .formatA 0x1234 0x05 0x26 0x07 = 0x7E
      ∧ checksum .formatB 0x1234 0x05 0x26 0x07 = 0x84
      ∧ checksum .formatA 0xFFFF 0xFF 0xFF 0xFF = 0x01
      ∧ checksum .formatB 0xFFFF 0xFF 0xDF 0xFF = 0xE8
      ∧ checksum .formatA 0x00FA 0x00 0x00 0x00 = 0x00 := by decide

/-- Vector V12 as the 68-bit number its bits write. -/
theorem test_frame_v12 :
    frameBits .formatB 0xC04B 0x7B 0x3F 0x80
      = msbFirst 0b00000000000011100000000100101100111101100011111101000000010101000110#68 := by
  decide

/-- Vector V1: 59 bits, 51 050 us. -/
theorem test_frame_v1 :
    frameBits .formatA 0x1234 0x05 0x06 0x00
        = msbFirst 0b00000000000010001001000011010010000010100000011000101011110#59
      ∧ traceDuration (encodeAndTransmit .formatA 0x1234 0x05 0x06 0x00) = 51050 := by decide

/-! ### One step of each command -/

theorem test_sendA_accept :
    (nextOf (commandTurn (presented 0x011234050600))).map
        (fun t => (t.command.hc, t.command.addr, t.command.cmd, t.command.seq, t.command.busy, t.chk))
      = some (0x1234, 0x05, 0x06, ⟨.txBegin, 0, 0⟩, true, 0x57) := by decide

/-- 41_transmit_scheduler.md R172: a word presented while busy is not consumed. -/
theorem test_sendA_waits :
    (nextOf (commandTurn { sending .txDelay 2 0 with port := some 0x011234050600 })).map
        (fun t => (t.port, t.command.seq, t.txTrace))
      = some (some 0x011234050600, ⟨.txReact, 2, 0⟩, [.delayUs 10000]) := by decide

theorem test_sendB_accept :
    (nextOf (commandTurn (presented 0x021234050600))).map (fun t => (t.command.var, t.chk, t.results))
      = some (.formatB, 0x5D, []) := by decide

theorem test_sendB_not_built :
    (nextOf (commandTurn { started leanBuild with port := some 0x021234050600 })).map
        (fun t => (t.command.busy, t.txTrace, t.results))
      = some (false, [], [.parseError]) := by decide

theorem test_setGain_accept :
    (nextOf (commandTurn (presented 0x030000000002))).map
        (fun t => (t.command.val, t.command.kind, t.command.seq.st, t.command.busy, t.txTrace))
      = some (2, .gain, .tune, true, []) := by decide

/-- 95_test_vectors.md 2.9, first row. -/
theorem test_setGain_tune :
    (nextOf (commandTurn (tuning .gain 2))).map (fun t => (t.radio.desc, t.txTrace, t.results))
      = some (⟨4, 2, 3⟩, [.rlSetBGD 4 2 3], [.ok]) := by decide

theorem test_setDrssi_accept :
    (nextOf (commandTurn (presented 0x040000000005))).map
        (fun t => (t.command.val, t.command.kind, t.command.seq.st, t.command.busy))
      = some (5, .drssi, .tune, true) := by decide

/-- 95_test_vectors.md 2.9, on the descriptor (4, 1, 3). -/
theorem test_setDrssi_tune :
    (nextOf (commandTurn (tuning .drssi 5))).map (fun t => (t.radio.desc, t.txTrace, t.command.busy))
      = some (⟨4, 1, 5⟩, [.rlSetBGD 4 1 5], false) := by decide

/-- 95_test_vectors.md 2.10, first row. -/
theorem test_setDebug_sets :
    (nextOf (commandTurn (presented 0x0500000000A5))).map
        (fun t => (t.command.debug, cfgRead 4 t, t.results, t.command.busy))
      = some (0xA5, 0xA5, [.ok], false) := by decide

/-- 95_test_vectors.md 2.10, third row. -/
theorem test_setDebug_not_built :
    (nextOf (commandTurn { started leanBuild with port := some 0x0500000000A5 })).map
        (fun t => (t.command.debug, t.results))
      = some (0x00, [.parseError]) := by decide

/-! ### The sequencer, the counter and the capture agent -/

/-- Bit 12 of V1 is the sync's one. -/
theorem test_txOn_pulse :
    (nextOf (commandTurn (sending .txOn 0 12))).map (fun t => (t.txTrace, t.command.seq))
      = some ([.rlKey true 750], ⟨.txOff, 0, 12⟩) := by decide

/-- Bit 58 of V1 is the stop bit, the last. -/
theorem test_txOff_last :
    (nextOf (commandTurn (sending .txOff 0 58))).map (fun t => (t.txTrace, t.command.seq.st))
      = some ([.rlKey false 200], .txEnd) := by decide

/-- The third wait is followed by reactivation, the first two by another repetition. -/
theorem test_txDelay_decides :
    (nextOf (commandTurn (sending .txDelay 1 0))).map (fun t => t.command.seq)
        = some ⟨.txBegin, 2, 0⟩
      ∧ (nextOf (commandTurn (sending .txDelay 2 0))).map (fun t => t.command.seq)
        = some ⟨.txReact, 2, 0⟩ := by decide

/-- 95_test_vectors.md 2.13, first row: the wrap raises nothing, the compare value does. -/
theorem test_tick_wrap_and_match :
    (tick (listening 0xFF 0x01 false)).tcnt = 0
      ∧ (tick (listening 0xFF 0x01 false)).capture.cmpPend = false
      ∧ (tick (listening 0x00 0x01 false)).capture.cmpPend = true := by decide

/-- 95_test_vectors.md 2.14, X1. -/
theorem test_edge_service :
    (captureTurn (edge (listening 0x10 0x80 false))).rxTrace = [.onInit, .onEdge 0x10 true]
      ∧ (captureTurn (edge (listening 0x10 0x80 false))).capture.statusInd = true := by decide

/-- 95_test_vectors.md 2.14, X6: the compare match raised first is serviced first. -/
theorem test_first_raised_first_serviced :
    (captureTurn (edge (tick (listening 0x7F 0x80 true)))).rxTrace = [.onInit, .onTimeout]
      ∧ (captureTurn (tick (edge (listening 0x7F 0x80 true)))).rxTrace
        = [.onInit, .onEdge 0x80 false] := by decide

/-- 95_test_vectors.md 2.13, last row. -/
theorem test_status_read :
    cfgRead 5 { sending .txOn 0 0 with capture := ⟨false, false, .edge, false, true, true⟩ } = 0x05 := by
  decide

theorem test_ctrl_write : cfgRead 2 (cfgWrite 2 0xFF idle) = 0x03 := by decide

/-- 95_test_vectors.md 2.11: 10.88 MHz takes 256, since exactly 255 does not fit; 200 MHz fails. -/
theorem test_prescaler :
    prescaler? { Config.Params.reference with fClkHz := 10880000 } = some 256
      ∧ prescaler? { Config.Params.reference with fClkHz := 10840000 } = some 64
      ∧ prescaler? { Config.Params.reference with fClkHz := 200000000 } = none := by decide

/-- 95_test_vectors.md 2.12. -/
theorem test_conversions :
    usToTicks Config.Params.reference 1500 = some 93 ∧ usToTicks Config.Params.reference 4096 = some 256
      ∧ ticksToUs Config.Params.reference 93 = some 1488 := by decide

/-- The word placed by `withFetchWord` is what the first step after it accepts. -/
theorem test_withFetchWord_runs :
    (nextOf (step (State.reset.withFetchWord 48 0x030000000002))).map
        (fun t => (t.command.val, t.command.kind, t.command.busy, t.port))
      = some (2, .gain, true, none) := by decide

theorem reset_inv : State.reset.Inv := by decide

/-! ### Witnesses: the hypotheses of each statement can be met, clause by clause -/

theorem witness_DecodeOfEncodeIsTheInstruction :
    (Instr.sendA 0xFFFF 0xFF 0xFF 0xFF).wellFormed leanBuild = true
      ∧ (Instr.sendB 0xFFFF 0xFF 0xFF 0xFF).wellFormed Config.Params.reference = true
      ∧ (Instr.setGain 0).wellFormed leanBuild = true ∧ (Instr.setDrssi 0xFF).wellFormed leanBuild = true
      ∧ (Instr.setDebug 0xFF).wellFormed Config.Params.reference = true := by decide

theorem witness_EncodeOfDecodeIsTheWord :
    decode Config.Params.reference 0x01FFFFFFFFFF = .ok (.sendA 0xFFFF 0xFF 0xFF 0xFF)
      ∧ decode leanBuild 0x030000000000 = .ok (.setGain 0x00) := by decide

theorem witness_DecodeReadsTheFieldsOfTheWord :
    (0x01FFFFFFFFFF : CommandWord).toNat / 2 ^ 40 = 1
      ∧ ((0x020000000000 : CommandWord).toNat / 2 ^ 40 = 2
        ∧ Config.Params.reference.formatBEnabled = true)
      ∧ ((0x020000000000 : CommandWord).toNat / 2 ^ 40 = 2 ∧ leanBuild.formatBEnabled = false)
      ∧ (3 ≤ (0x030000000100 : CommandWord).toNat / 2 ^ 40
        ∧ (0x058000000000 : CommandWord).toNat / 2 ^ 40 ≤ 5
        ∧ (0x030000000100 : CommandWord).toNat / 2 ^ 8 % 2 ^ 32 ≠ 0
        ∧ (0x058000000000 : CommandWord).toNat / 2 ^ 8 % 2 ^ 32 ≠ 0)
      ∧ ((0x0300000000FF : CommandWord).toNat / 2 ^ 40 = 3
        ∧ (0x0300000000FF : CommandWord).toNat / 2 ^ 8 % 2 ^ 32 = 0)
      ∧ ((0x0400000000FF : CommandWord).toNat / 2 ^ 40 = 4
        ∧ (0x0400000000FF : CommandWord).toNat / 2 ^ 8 % 2 ^ 32 = 0)
      ∧ ((0x0500000000FF : CommandWord).toNat / 2 ^ 40 = 5
        ∧ (0x0500000000FF : CommandWord).toNat / 2 ^ 8 % 2 ^ 32 = 0
        ∧ Config.Params.reference.debugBuild = true ∧ leanBuild.debugBuild = false)
      ∧ (0x00FFFFFFFFFF : CommandWord).toNat / 2 ^ 40 = 0
      ∧ 6 ≤ (0x060000000000 : CommandWord).toNat / 2 ^ 40 := by decide

/-- The state of a witness for one step: a word presented, the Command agent next. -/
def stepping (p : Config.Params) (w : CommandWord) : State :=
  { started p with port := some w, schedule := [.command] }

theorem witness_IllegalWordsAreExactlyTheParseErrors :
    (acceptEnabled (stepping leanBuild 0x060000000000) = true
      ∧ nextMove (stepping leanBuild 0x060000000000) = .command
      ∧ (stepping leanBuild 0x060000000000).port = some 0x060000000000)
    ∧ (opField 0x000000000000 = 0 ∧ 6 ≤ (opField 0x060000000000).toNat
      ∧ opField 0x020000000000 = 2 ∧ leanBuild.formatBEnabled = false
      ∧ opField 0x050000000000 = 5 ∧ leanBuild.debugBuild = false
      ∧ 3 ≤ (opField 0x030000000100).toNat ∧ (opField 0x030000000100).toNat ≤ 5
      ∧ zeroField 0x030000000100 ≠ 0)
    ∧ ¬(opField 0x0500000000FF = 0 ∨ 6 ≤ (opField 0x0500000000FF).toNat
      ∨ (opField 0x0500000000FF = 2 ∧ Config.Params.reference.formatBEnabled = false)
      ∨ (opField 0x0500000000FF = 5 ∧ Config.Params.reference.debugBuild = false)
      ∨ (3 ≤ (opField 0x0500000000FF).toNat ∧ (opField 0x0500000000FF).toNat ≤ 5
        ∧ zeroField 0x0500000000FF ≠ 0)) := by decide

theorem witness_TokensReadInTheRadixOfTheCommand :
    (Nat.digits 16 0x1234).reverse = [1, 2, 3, 4] ∧ readDigits 16 [1, 2, 3, 4] = some 0x1234
      ∧ readDigits 16 [0] = some 0 ∧ readDigits 16 [15] = some 15
      ∧ (readLine .sendA [[1, 0]]).args = [some 16] ∧ (readLine .setGain [[1, 0]]).args = [some 10]
      ∧ (9 < 10 ∧ [2, 5] ≠ ([] : List Nat)) ∧ readDigits 10 [2, 5, 10] = none
      ∧ (∃ ds ∈ [[2, 10]], ∃ d ∈ ds, 10 ≤ d) ∧ ∃ ds ∈ [[1, 16]], ∃ d ∈ ds, 16 ≤ d := by
  refine ⟨by simp, ?_⟩; decide

theorem witness_MalformedTextLinesReachNothing :
    none ∈ (readLine .setGain [[10]]).args ∧ (readLine .unknown [[1]]).name = .unknown
      ∧ ((readLine .sendA [[1], [2]]).args.length ≠ 3 ∧ (readLine .sendA [[1], [2]]).args.length ≠ 4)
      ∧ (readLine .setDebug [[1], [2]]).args.length ≠ 1
      ∧ (readLine .sendA [[1, 0, 0, 0, 0], [1], [1]]).args.head? = some (some 65536)
      ∧ (readLine .setGain [[2, 5, 6]]).args.head? = some (some 256)
      ∧ some 256 ∈ (readLine .sendB [[1], [1, 0, 0], [1]]).args.tail := by decide

theorem witness_AbsentDataHasNoEffect : hasData 0xDF = false := by decide

theorem witness_FrameBitAtEachIndex :
    (fieldBytes .formatA 0x1234 0x05 0x26 0x07)[0]? = some 0x12
      ∧ (fieldBytes .formatA 0x1234 0x05 0x26 0x07)[4]? = some 0x07
      ∧ (fieldBytes .formatA 0x1234 0x05 0x26 0x07)[5]? = some 0x7E
      ∧ (fieldBytes .formatA 0x1234 0x05 0x06 0x07)[4]? = some 0x57 := by decide

theorem witness_AcceptStepLatchesTheCommand :
    (idle.capture.initDone = true ∧ idle.command.seq.st = .idle ∧ idle.port = none)
      ∧ ((presented 0).command.busy = false ∧ (presented 0).port = some 0)
      ∧ decode (presented 0).params 0 = .error .reservedOpcode
      ∧ decode (presented 0).params 0x01FFFFFFFFFF = .ok (.sendA 0xFFFF 0xFF 0xFF 0xFF)
      ∧ decode (presented 0).params 0x02FFFFFFFFFF = .ok (.sendB 0xFFFF 0xFF 0xFF 0xFF)
      ∧ decode (presented 0).params 0x0300000000FF = .ok (.setGain 0xFF)
      ∧ decode (presented 0).params 0x0400000000FF = .ok (.setDrssi 0xFF)
      ∧ decode (presented 0).params 0x0500000000FF = .ok (.setDebug 0xFF) := by decide

/-- The other half of the disabled clause: an idle sequencer with `BUSY` set. -/
theorem witness_AcceptStepLatchesTheCommand_busy :
    ({ idle with command := { idle.command with busy := true } } : State).command.busy = true := by
  decide

theorem witness_SendBBeginsASendWhenBuilt :
    idle.params.formatBEnabled = true ∧ (started leanBuild).params.formatBEnabled = false := by decide

theorem witness_SetDebugStoresTheFlagWhenBuilt :
    idle.params.debugBuild = true ∧ (started leanBuild).params.debugBuild = false := by decide

theorem witness_CommandsLeaveEverythingElse :
    (∃ t, exec (.sendA 0 0 0 0) idle = .next t) ∧ (∃ t, exec (.sendB 0 0 0 0) idle = .next t)
      ∧ (∃ t, exec (.setGain 0) idle = .next t) ∧ (∃ t, exec (.setDrssi 0) idle = .next t)
      ∧ ∃ t, exec (.setDebug 0) idle = .next t :=
  ⟨⟨_, rfl⟩, ⟨_, rfl⟩, ⟨_, rfl⟩, ⟨_, rfl⟩, ⟨_, rfl⟩⟩

theorem witness_StepRunsTheDecodedInstruction :
    let s := stepping Config.Params.reference 0x040000000005
    nextMove s = .command ∧ acceptEnabled s = true ∧ s.port = some 0x040000000005
      ∧ decode s.params 0x040000000005 = .ok (.setDrssi 0x05) := by decide

theorem witness_SequencerStepsOfASend :
    (sending .txBegin 0 0).capture.initDone = true
      ∧ (sending .txBegin 2 0).command.seq = ⟨.txBegin, 2, 0⟩
      ∧ (sending .txOn 0 12).frame[12]? = some true ∧ (sending .txOn 2 58).frame[58]? = some false
      ∧ (sending .txOff 0 58).frame[58]? = some false ∧ (sending .txOff 0 0).frame[0]? = some false
      ∧ (sending .txEnd 0 58).command.seq = ⟨.txEnd, 0, 58⟩
      ∧ (sending .txDelay 2 0).command.seq = ⟨.txDelay, 2, 0⟩
      ∧ (sending .txReact 2 0).command.seq = ⟨.txReact, 2, 0⟩ := by decide

theorem witness_TuneStepWritesAllThreeFieldsBack :
    (tuning .gain 2).capture.initDone = true ∧ (tuning .gain 2).command.seq.st = .tune
      ∧ (tuning .drssi 2).command.seq.st = .tune ∧ (tuning .send 2).command.seq.st = .tune := by decide

theorem witness_SendRunsToCompletion :
    let n := 6 * (frameBits .formatB 0x1234 0x05 0x26 0x07).length + 11
    let s : State := { presented (encode (.sendB 0x1234 0x05 0x26 0x07)) with
      schedule := List.replicate n Config.Move.command ++ [.tick] }
    acceptEnabled s = true ∧ s.radio.isOpen = false ∧ s.params.formatBEnabled = true
      ∧ s.port = some (encode (.sendB 0x1234 0x05 0x26 0x07))
      ∧ s.schedule = List.replicate n Config.Move.command ++ [.tick] :=
  ⟨rfl, rfl, rfl, rfl, rfl⟩

theorem witness_TuningChangesOneDescriptorField :
    let s := fun w => ({ presented w with schedule := [.command, .command, .edge] } : State)
    acceptEnabled (s (encode (.setGain 0xFF))) = true
      ∧ (s (encode (.setGain 0xFF))).schedule = .command :: .command :: [.edge]
      ∧ (s (encode (.setGain 0xFF))).port = some (encode (.setGain 0xFF))
      ∧ (s (encode (.setDrssi 0xFF))).port = some (encode (.setDrssi 0xFF)) :=
  ⟨rfl, rfl, rfl, rfl⟩

/-- Turns that leave the block busy, and the one that ends the command. -/
theorem witness_NothingAbortsACommand :
    (sending .txOn 0 0).command.busy = true
      ∧ (∃ t, takeTurn (.present 0) (sending .txOn 0 0) = .next t ∧ t.command.busy = true)
      ∧ (∃ t, takeTurn .command (sending .txDelay 2 0) = .next t ∧ t.command.busy = true)
      ∧ SeqCoherent (sending .txReact 2 0)
      ∧ ∃ t, takeTurn .command (sending .txReact 2 0) = .next t ∧ t.command.busy = false :=
  ⟨rfl, ⟨_, rfl, rfl⟩, ⟨_, rfl, rfl⟩, by decide, _, rfl, rfl⟩

theorem witness_ResultFollowsTheLastOperation :
    SeqCoherent (sending .txReact 2 0) ∧ (sending .txReact 2 0).command.busy = true
      ∧ (∃ t, commandTurn (sending .txReact 2 0) = .next t)
      ∧ SeqCoherent (sending .txOff 1 58) ∧ SeqCoherent (tuning .drssi 0) :=
  ⟨by decide, rfl, ⟨_, rfl⟩, by decide, by decide⟩

theorem witness_PresentedWordWaitsWhileBusy :
    let s : State := { sending .txOn 0 0 with port := some 0x0300000000FF }
    SeqCoherent s ∧ s.command.busy = true ∧ s.port = some 0x0300000000FF
      ∧ (∃ t, takeTurn .command s = .next t) ∧ (∀ w', Config.Move.command ≠ .present w')
      ∧ Config.Move.command ≠ .withdraw :=
  ⟨by decide, rfl, rfl, ⟨_, rfl⟩, by simp, by decide⟩

theorem witness_TickAdvancesAndCompares :
    (listening 0x7F 0x81 false).tcnt + 1 ≠ (listening 0x7F 0x81 false).config.ocr
      ∧ idle.config.cmpIe = false ∧ (pending false true .cmp false).capture.cmpPend = true
      ∧ (listening 0xFF 0x00 false).tcnt + 1 = (listening 0xFF 0x00 false).config.ocr
      ∧ (listening 0xFF 0x00 false).config.cmpIe = true
      ∧ (listening 0xFF 0x00 false).capture.cmpPend = false := by decide

theorem witness_CounterCountsTicksOnly :
    ∃ t, runMoves [.tick, .edge, .tick] (listening 0xFF 0x00 false) = .next t := ⟨_, rfl⟩

/-- One tick is allowed at `0x7E` against `0x80`, and no tick at `0x7F`. -/
theorem witness_NoTimeoutBeforeTheCompareValue :
    (∀ v, Config.Move.cfgWrite 1 v ∉ [Config.Move.tick, .edge, .cfgWrite 2 0x03])
      ∧ [Config.Move.tick, .edge, .cfgWrite 2 0x03].count .tick
        ≤ ((listening 0x7E 0x80 false).config.ocr - (listening 0x7E 0x80 false).tcnt - 1).toNat
      ∧ (listening 0x7E 0x80 false).capture.cmpPend = false
      ∧ (∃ t, runMoves [.tick, .edge, .cfgWrite 2 0x03] (listening 0x7E 0x80 false) = .next t)
      ∧ ((listening 0x7F 0x80 false).config.ocr - (listening 0x7F 0x80 false).tcnt - 1).toNat = 0 :=
  ⟨by simp, by decide, rfl, ⟨_, rfl⟩, by decide⟩

theorem witness_ReachingTheCompareValueRaisesTheMatch :
    (∀ n v, Config.Move.cfgWrite n v ∉ [Config.Move.tick, .capture])
      ∧ [Config.Move.tick, .capture].count .tick
        = ((listening 0x7E 0x80 false).config.ocr - (listening 0x7E 0x80 false).tcnt - 1).toNat
      ∧ (listening 0x7E 0x80 false).config.cmpIe = true
      ∧ ∃ t, runMoves ([.tick, .capture] ++ [.tick]) (listening 0x7E 0x80 false) = .next t :=
  ⟨by simp, by decide, rfl, ⟨_, rfl⟩⟩

theorem witness_PrescalerIsTheSmallestThatFits :
    wellFormedBuild { Config.Params.reference with fClkHz := 10880000 } = true
      ∧ prescaler? { Config.Params.reference with fClkHz := 10880000 } = some 256 := by decide

theorem witness_BuildFailsWhenNoCandidateFits :
    (∀ P ∈ [1, 8, 64, 256, 1024], ¬(1500 * 200000000 / (P * 1000000) < 255))
      ∧ 0 < 10840000 ∧ [1, 8, 64, 256, 1024].Pairwise (· < ·)
      ∧ (∀ P ∈ [1, 8, 64, 256, 1024], 0 < P)
      ∧ ∃ P ∈ [1, 8, 64, 256, 1024], 1500 * 10840000 / (P * 1000000) < 255 := by decide

/-- 16 us a tick at 16 MHz and 256: the exact clause applies; 14.7456 MHz does not divide. -/
theorem witness_ConversionRoundTripsNeverGain :
    0 < Config.Params.reference.fClkHz ∧ Config.Params.reference.fClkHz ∣ 1000000 * 256
      ∧ ¬14745600 ∣ 1000000 * 256 := by decide

theorem witness_InitStepComesFirst :
    State.reset.capture.initDone = false ∧ InitFirst State.reset
      ∧ (∃ t, takeTurn .capture State.reset = .next t) ∧ idle.capture.initDone = true ∧ ∃ t, takeTurn .capture idle = .next t :=
  ⟨rfl, by decide, ⟨_, rfl⟩, rfl, ⟨_, rfl⟩⟩

theorem witness_EdgeStepRaisesOnce :
    idle.config.edgeIe = false ∧ (pending true false .edge false).capture.edgePend = true
      ∧ (pending false true .edge false).config.edgeIe = true
      ∧ (pending false true .edge false).capture.edgePend = false := by decide

theorem witness_EdgeServiceForwardsTheSnapshot :
    (let s := pending true false .cmp false
     s.capture.initDone = true ∧ s.capture.edgePend = true ∧ s.capture.inIrq = false
      ∧ s.capture.cmpPend = false)
      ∧ (pending true true .edge false).capture.first = .edge
      ∧ leanBuild.mirrorEdge = false ∧ Config.Params.reference.mirrorEdge = true := by decide

/-- The other clause: an edge pending behind a compare match raised first. -/
theorem witness_EdgeServiceForwardsTheSnapshot_otherwise :
    let s := pending true true .cmp false
    (∃ t, takeTurn .capture s = .next t)
      ∧ ¬(s.capture.cmpPend = false ∨ s.capture.first = .edge) ∧ s.capture.edgePend = true :=
  ⟨⟨_, rfl⟩, by decide, rfl⟩

theorem witness_TimeoutServiceForwardsNoValue :
    (let s := pending false true .edge false
     s.capture.initDone = true ∧ s.capture.cmpPend = true ∧ s.capture.inIrq = false
      ∧ s.capture.edgePend = false)
      ∧ (pending true true .cmp false).capture.first = .cmp := by decide

/-- The other clause: a compare match pending behind an edge raised first. -/
theorem witness_TimeoutServiceForwardsNoValue_otherwise :
    let s := pending true true .edge false
    (∃ t, takeTurn .capture s = .next t)
      ∧ ¬(s.capture.edgePend = false ∨ s.capture.first = .cmp) ∧ s.capture.cmpPend = true :=
  ⟨⟨_, rfl⟩, by decide, rfl⟩

theorem witness_HandlersReturnAndDoNotNest :
    (pending true true .edge true).capture.initDone = true
      ∧ (pending true true .edge true).capture.inIrq = true
      ∧ (pending true true .edge true).capture.edgePend = true
      ∧ (pending true true .edge true).capture.cmpPend = true
      ∧ (∃ t, takeTurn .capture (pending true true .edge true) = .next t)
      ∧ ∃ t, takeTurn .edge (pending true true .edge true) = .next t :=
  ⟨rfl, rfl, rfl, rfl, ⟨_, rfl⟩, ⟨_, rfl⟩⟩

/-- The edge is pending and the next tick matches. -/
theorem witness_OldestPendingInterruptIsServicedFirst_edge :
    let s : State := { pending true false .cmp false with tcnt := 0x7F }
    s.capture.initDone = true ∧ s.capture.inIrq = false ∧ Config.Move.capture ∉ [Config.Move.edge]
      ∧ s.capture.edgePend = true ∧ s.capture.cmpPend = false ∧ s.config.cmpIe = true
      ∧ s.tcnt + 1 = s.config.ocr
      ∧ ∃ t u, runMoves (.tick :: [.edge]) s = .next t ∧ takeTurn .capture t = .next u :=
  ⟨rfl, rfl, by decide, rfl, rfl, rfl, by decide, _, _, rfl, rfl⟩

/-- The compare match is pending and a transition follows. -/
theorem witness_OldestPendingInterruptIsServicedFirst_cmp :
    let s := pending false true .edge false
    s.capture.cmpPend = true ∧ s.capture.edgePend = false ∧ s.config.edgeIe = true
      ∧ ∃ t u, runMoves (.edge :: [.tick]) s = .next t ∧ takeTurn .capture t = .next u :=
  ⟨rfl, rfl, rfl, _, _, rfl, rfl⟩

/-- One pending alone. -/
theorem witness_OldestPendingInterruptIsServicedFirst_alone :
    (∃ u, takeTurn .capture (pending true false .cmp false) = .next u)
      ∧ ∃ u, takeTurn .capture (pending false true .edge false) = .next u := ⟨⟨_, rfl⟩, ⟨_, rfl⟩⟩

theorem witness_LateServiceReportsTheServiceTime :
    let s := listening 0x10 0x80 false
    s.capture.initDone = true ∧ s.capture.inIrq = false ∧ s.config.edgeIe = true
      ∧ s.capture.edgePend = false ∧ s.capture.cmpPend = false
      ∧ (∀ m ∈ [Config.Move.tick, .edge, .tick], m = .tick ∨ m = .edge)
      ∧ ∃ t, runMoves (.edge :: ([.tick, .edge, .tick] ++ [.capture])) s = .next t :=
  ⟨rfl, rfl, rfl, rfl, rfl, by decide, _, rfl⟩

theorem witness_EagerRunForwardsEveryEvent :
    let s := listening 0x7F 0x80 false
    let ms : List Config.Move :=
      [.tick, .capture, .cfgWrite 1 0x90, .capture, .edge, .capture, .capture, .tick]
    s.capture.initDone = true ∧ s.capture.inIrq = false ∧ s.capture.edgePend = false
      ∧ s.capture.cmpPend = false ∧ eager .clear ms s = true ∧ (∃ t, runMoves ms s = .next t)
      ∧ raisedAlong ms s = [.onTimeout, .onEdge 0x80 true] :=
  ⟨rfl, rfl, rfl, rfl, by decide, ⟨_, rfl⟩, by decide⟩

theorem witness_CommandAndCaptureAgentsAreIndependent :
    idle.capture.initDone = true
      ∧ ∃ t, runMoves [.present 0x030000000002, .edge, .command, .tick, .command, .cfgWrite 2 3, .edge,
        .capture] idle = .next t := ⟨rfl, _, rfl⟩

theorem witness_ConfigurationRegistersReadAndWrite :
    idle.params.debugBuild = true ∧ BuildHardWired (started leanBuild)
      ∧ idle.capture.initDone = true ∧ (0 : Fin 8) ≠ 1 ∧ (3 : Fin 8) ≠ 2 := by decide

/-- A pending interrupt whose enable is cleared before its service. -/
theorem witness_ConfigurationAccessesTakeEffect_pending :
    let s := pending false true .edge false
    s.capture.initDone = true ∧ s.capture.inIrq = false ∧ s.capture.edgePend = false
      ∧ s.capture.cmpPend = true ∧ (pending true false .cmp false).capture.edgePend = true
      ∧ (pending true false .cmp false).capture.cmpPend = false
      ∧ (∃ t, runMoves [.cfgWrite 2 0, .capture] s = .next t)
      ∧ ∃ t, runMoves [.cfgWrite 2 0, .capture] (pending true false .cmp false) = .next t :=
  ⟨rfl, rfl, rfl, rfl, rfl, rfl, ⟨_, rfl⟩, ⟨_, rfl⟩⟩

theorem cfgWrite_then_ticks_total (v : Byte) (k : Nat) (s : State) :
    ∃ t, runMoves (.cfgWrite 1 v :: List.replicate k .tick) s = .next t := by
  rw [runMoves_cons_next (takeTurn_cfgWrite 1 v s)]
  exact runMoves_ticks_total k _

/-- The compare value set to the present count: the 255th and the 256th tick, where the outcomes meet. -/
theorem witness_ConfigurationAccessesTakeEffect :
    let s := listening 0x20 0x80 false
    s.capture.initDone = true ∧ s.config.cmpIe = true ∧ s.capture.cmpPend = false
      ∧ (∃ t, runMoves (.cfgWrite 1 s.tcnt :: List.replicate 255 .tick) s = .next t) ∧ 255 ≤ 256
      ∧ (∃ t, runMoves (.cfgWrite 1 s.tcnt :: List.replicate 256 .tick) s = .next t) ∧ 256 ≤ 256 :=
  ⟨rfl, rfl, rfl, cfgWrite_then_ticks_total _ 255 _, by decide, cfgWrite_then_ticks_total _ 256 _, by decide⟩

theorem witness_LaunchStateHasTheResetValues :
    State.launch Config.Params.reference { LaunchValues.zero with tcnt := 0xFF, rx := true }
      = some (State.resetWith Config.Params.reference { LaunchValues.zero with tcnt := 0xFF, rx := true }) := by
  decide

/-- A launch state with latches of its own: `0x06 + 0x12 + 0x34 + 0x05 + 0x06` (95_test_vectors.md 2.1). -/
theorem witness_ChkIsTheChecksumOfTheLatches :
    let v := { LaunchValues.zero with hc := 0x1234, addr := 0x05, cmd := 0x06 }
    (State.launch Config.Params.reference v).map State.chk = some 0x57 := by decide

theorem witness_LaunchStatesMeetTheInvariant : CleanLaunch State.reset :=
  ⟨Config.Params.reference, LaunchValues.zero, by decide⟩

/-- A step in the middle of a frame and the one that leaves it. -/
theorem witness_EveryStepKeepsTheSequencerCoherent :
    SeqCoherent { sending .txOff 2 58 with schedule := [.command] }
      ∧ (∃ t, step { sending .txOff 2 58 with schedule := [.command] } = .next t)
      ∧ SeqCoherent (stepping Config.Params.reference 0x030000000002)
      ∧ ∃ t, step (stepping Config.Params.reference 0x030000000002) = .next t :=
  ⟨by decide, ⟨_, rfl⟩, by decide, ⟨_, rfl⟩⟩

theorem witness_EveryStepKeepsTheTraceBracketed :
    let s : State := { sending .txOn 0 0 with txTrace := [.rlBegin], schedule := [.command] }
    SeqCoherent s ∧ TraceBracketed s ∧ ∃ t, step s = .next t := ⟨by decide, by decide, _, rfl⟩

theorem witness_EveryStepKeepsInitFirst :
    (InitFirst { State.reset with schedule := [.capture] }
      ∧ ∃ t, step { State.reset with schedule := [.capture] } = .next t)
      ∧ InitFirst { pending true false .edge false with schedule := [.capture] }
      ∧ ∃ t, step { pending true false .edge false with schedule := [.capture] } = .next t :=
  ⟨⟨by decide, _, rfl⟩, by decide, _, rfl⟩

theorem witness_OnlyTheOwnerWritesItsState :
    (∃ t, takeTurn .tick (sending .txOn 0 0) = .next t)
      ∧ (∃ t, takeTurn (.cfgRead 0) (sending .txOn 0 0) = .next t)
      ∧ (∃ t, takeTurn .command (sending .txOn 0 0) = .next t)
      ∧ (sending .txOn 0 0).command.seq.st ≠ .tune ∧ (sending .txOn 0 0).command.seq.st ≠ .idle :=
  ⟨⟨_, rfl⟩, ⟨_, rfl⟩, ⟨_, rfl⟩, by decide, by decide⟩

theorem witness_EveryStepKeepsTheBuildHardWired :
    let s : State := { stepping leanBuild 0x0500000000A5 with schedule := [.command] }
    BuildHardWired s ∧ (∃ t, step s = .next t) ∧ s.params.debugBuild = false
      ∧ s.params.mirrorEdge = false := ⟨by decide, ⟨_, rfl⟩, rfl, rfl⟩

theorem witness_CoherentStatesNeverStop : SeqCoherent State.reset ∧ SeqCoherent (sending .txOn 2 0) := by
  decide

/-! ### An invariant is needed: outside it the model's one fault is reached (log 9) -/

theorem test_frame_index_fault :
    (match commandTurn (sending .txOn 0 59) with
      | .fault r => some r
      | .next _ => none
      | .refused _ => none) = some .frameIndexOutOfRange := by decide

end Sys2Proof.Tests
end

section
/-! Proofs of the statements about the block's state (10_state.md): the configuration registers and
the reset values. -/

namespace Sys2Proof.Machine

/-! ### The configuration port -/

/-- A packed register read as a number: bits 2, 1, 0 are as given and bits 7:3 read as zero (R37). -/
theorem packBits_toNat (b2 b1 b0 : Bool) :
    (packBits b2 b1 b0).toNat = b0.toNat + 2 * b1.toNat + 4 * b2.toNat := by
  cases b2 <;> cases b1 <;> cases b0 <;> decide

/-- Register 4 shows `DEBUG` in a debug build, and elsewhere where the flag is hard-wired to zero (R28). -/
theorem debugView_eq_debug {s : State} (h : s.params.debugBuild = true ∨ BuildHardWired s) :
    s.debugView = s.command.debug := by
  unfold State.debugView
  split
  · rfl
  · next hd =>
    obtain hb | ⟨hzero, -⟩ := h
    · exact absurd hb hd
    · exact (hzero (by simpa using hd)).symm

/-- Only registers 1 and 2 take a write (20_memory.md R66). -/
theorem cfgWrite_of_ne {n : Fin 8} (h1 : n ≠ 1) (h2 : n ≠ 2) (v : Byte) (s : State) :
    cfgWrite n v s = s := by
  unfold cfgWrite
  split
  · exact absurd rfl h1
  · exact absurd rfl h2
  · rfl

theorem takeTurn_cfgRead_of_initDone {s : State} (h : s.capture.initDone = true) (n : Fin 8) :
    takeTurn (.cfgRead n) s = .next { s with cfgData := some (cfgRead n s) } := by
  simp [cfgReadTurn, h]

theorem takeTurn_cfgWrite_of_initDone {s : State} (h : s.capture.initDone = true) (n : Fin 8) (v : Byte) :
    takeTurn (.cfgWrite n v) s = .next (cfgWrite n v s) := by
  simp [cfgWriteTurn, h]

/-- Settles O49: each read view is its register's definition, `CTRL`, `PEND` and `STATUS` by the value of
packed bits; after init each access is the read view or the write itself. -/
theorem configurationRegistersReadAndWrite : Obligations.ConfigurationRegistersReadAndWrite := by
  intro s
  have hctrl : (cfgRead 2 s).toNat = s.config.edgeIe.toNat + 2 * s.config.cmpIe.toNat :=
    packBits_toNat false s.config.cmpIe s.config.edgeIe
  have hpend : (cfgRead 3 s).toNat = s.capture.edgePend.toNat + 2 * s.capture.cmpPend.toNat :=
    packBits_toNat false s.capture.cmpPend s.capture.edgePend
  have hstatus : (cfgRead 5 s).toNat
      = s.command.busy.toNat + 2 * s.rx.toNat + 4 * s.capture.statusInd.toNat :=
    packBits_toNat s.capture.statusInd s.rx s.command.busy
  refine ⟨rfl, rfl, hctrl, hpend, debugView_eq_debug, hstatus, rfl, rfl, fun hinit => ?_⟩
  refine ⟨fun n => ⟨_, takeTurn_cfgRead_of_initDone hinit n, rfl⟩,
    fun v => takeTurn_cfgWrite_of_initDone hinit 1 v,
    fun v => takeTurn_cfgWrite_of_initDone hinit 2 v, fun n v h1 h2 => ?_⟩
  rw [takeTurn_cfgWrite_of_initDone hinit, cfgWrite_of_ne h1 h2]

/-! ### The reset values -/

/-- A launch that answers is the reset state of a well-formed build with the chosen open values (R41). -/
theorem launch_eq_some_iff {p : Config.Params} {v : LaunchValues} {s : State} :
    State.launch p v = some s ↔ wellFormedBuild p = true ∧ State.resetWith p v = s := by
  simp [State.launch]

/-- Settles O51: a launch state is `State.resetWith` of its build and open values, whose fields are the
reset values. -/
theorem launchStateHasTheResetValues : Obligations.LaunchStateHasTheResetValues := by
  intro p v s h
  obtain ⟨-, rfl⟩ := launch_eq_some_iff.mp h
  simp [State.resetWith, captureContext]

end Sys2Proof.Machine
end

section
/-! Proofs of the statements about the encoding (30_encoding.md): the fields that decoding reads and the
layout of a frame. -/

namespace Sys2Proof

/-! ### The fields of the word, cut from it as a number -/

section
variable (w : CommandWord)

theorem hcField_eq_ofNat : hcField w = BitVec.ofNat 16 (w.toNat / 2 ^ 24) := by
  apply BitVec.eq_of_toNat_eq; rw [hcField_toNat, BitVec.toNat_ofNat]

theorem addrField_eq_ofNat : addrField w = BitVec.ofNat 8 (w.toNat / 2 ^ 16) := by
  apply BitVec.eq_of_toNat_eq; rw [addrField_toNat, BitVec.toNat_ofNat]

theorem cmdField_eq_ofNat : cmdField w = BitVec.ofNat 8 (w.toNat / 2 ^ 8) := by
  apply BitVec.eq_of_toNat_eq; rw [cmdField_toNat, BitVec.toNat_ofNat]

theorem lowField_eq_ofNat : lowField w = BitVec.ofNat 8 w.toNat := by
  apply BitVec.eq_of_toNat_eq; rw [lowField_toNat, BitVec.toNat_ofNat]

theorem zeroField_eq_zero_iff : zeroField w = 0 ↔ w.toNat / 2 ^ 8 % 2 ^ 32 = 0 := by
  rw [← BitVec.toNat_inj, zeroField_toNat]
  rfl

end

/-! ### The outcome of a word, by its opcode (R94) -/

section
variable {p : Config.Params} {w : CommandWord}

theorem decode_of_opSendA (h : opField w = opSendA) :
    decode p w = .ok (.sendA (hcField w) (addrField w) (cmdField w) (lowField w)) := by
  simp [decode, h]

theorem decode_of_opSendB (h : opField w = opSendB) :
    decode p w = if p.formatBEnabled then
      .ok (.sendB (hcField w) (addrField w) (cmdField w) (lowField w))
    else .error .formatBNotBuilt := by
  simp [decode, h, opSendA, opSendB]

theorem decode_of_opSetGain (h : opField w = opSetGain) :
    decode p w = if zeroField w ≠ 0 then .error .reservedBits else .ok (.setGain (lowField w)) := by
  simp [decode, h, opSendA, opSendB, opSetGain]

theorem decode_of_opSetDrssi (h : opField w = opSetDrssi) :
    decode p w
      = if zeroField w ≠ 0 then .error .reservedBits else .ok (.setDrssi (lowField w)) := by
  simp [decode, h, opSendA, opSendB, opSetGain, opSetDrssi]

theorem decode_of_opSetDebug (h : opField w = opSetDebug) :
    decode p w = if zeroField w ≠ 0 then .error .reservedBits
      else if p.debugBuild then .ok (.setDebug (lowField w)) else .error .debugNotBuilt := by
  simp [decode, h, opSendA, opSendB, opSetGain, opSetDrssi, opSetDebug]

theorem decode_of_reservedOpcode (h : (opField w).toNat = 0 ∨ 6 ≤ (opField w).toNat) :
    decode p w = .error .reservedOpcode := by
  have hne : ∀ op : Byte, 1 ≤ op.toNat → op.toNat ≤ 5 → opField w ≠ op := by
    rintro op h1 h5 rfl
    omega
  rw [decode, if_neg (hne opSendA (by decide) (by decide)),
    if_neg (hne opSendB (by decide) (by decide)), if_neg]
  rintro (hop | hop | hop)
  · exact hne opSetGain (by decide) (by decide) hop
  · exact hne opSetDrssi (by decide) (by decide) hop
  · exact hne opSetDebug (by decide) (by decide) hop

/-- Reserved bits are tested before the build: of the three format `V` opcodes none escapes (R94). -/
theorem decode_of_reservedBits (h3 : 3 ≤ (opField w).toNat) (h5 : (opField w).toNat ≤ 5)
    (hz : zeroField w ≠ 0) : decode p w = .error .reservedBits := by
  have hop : opField w = opSetGain ∨ opField w = opSetDrssi ∨ opField w = opSetDebug := by
    simp only [← BitVec.toNat_inj, opSetGain, opSetDrssi, opSetDebug, BitVec.ofNat_eq_ofNat,
      BitVec.toNat_ofNat]
    omega
  obtain hop | hop | hop := hop
  · rw [decode_of_opSetGain hop, if_pos hz]
  · rw [decode_of_opSetDrssi hop, if_pos hz]
  · rw [decode_of_opSetDebug hop, if_pos hz]

end

end Sys2Proof

namespace Sys2Proof.Machine

/-- An invalid word is executed as `ParseError` (R221). -/
theorem accept_of_decode_error {w : CommandWord} {s : State} {e : DecodeError}
    (h : decode s.params w = .error e) : accept w s = raiseParseError s := by
  simp [accept, h]

/-- Settles O3: each clause names its opcode, so it is the equation of `decode` at that opcode, with the
fields read as numbers. -/
theorem decodeReadsTheFieldsOfTheWord : Obligations.DecodeReadsTheFieldsOfTheWord := by
  intro p w
  simp only [← hcField_eq_ofNat, ← addrField_eq_ofNat, ← cmdField_eq_ofNat, ← lowField_eq_ofNat,
    ne_eq, ← zeroField_eq_zero_iff, ← opField_toNat]
  have hop {op : Byte} (h : (opField w).toNat = op.toNat) : opField w = op :=
    BitVec.eq_of_toNat_eq h
  refine ⟨fun h => decode_of_opSendA (hop h), fun h hb => ?_, fun h hb => ?_,
    fun h3 h5 hz => decode_of_reservedBits h3 h5 hz, fun h hz => ?_, fun h hz => ?_,
    fun h hz hd => ?_, fun h hz hd => ?_, decode_of_reservedOpcode, ?_⟩
  · simp [decode_of_opSendB (hop h), hb]
  · simp [decode_of_opSendB (hop h), hb]
  · simp [decode_of_opSetGain (hop h), hz]
  · simp [decode_of_opSetDrssi (hop h), hz]
  · simp [decode_of_opSetDebug (hop h), hz, hd]
  · simp [decode_of_opSetDebug (hop h), hz, hd]
  · rintro s e rfl he
    exact accept_of_decode_error he

/-! ### The layout of a frame -/

/-- The data-present bit is the mask `0x20` (R135). -/
theorem hasData_iff (cmd : Byte) : hasData cmd = true ↔ cmd &&& 0x20 ≠ 0 := by
  have hmask : (0x20 : Byte) = BitVec.twoPow 8 5 := by decide
  rw [hasData, hmask, BitVec.and_twoPow]
  cases cmd.getLsbD 5 <;> decide

/-- The sync pattern is twelve zeros and a one (R101). -/
theorem syncBits_eq_zeros_append_one : syncBits = List.replicate 12 false ++ [true] := by decide

@[simp] theorem length_field9 (b : Byte) : (field9 b).length = 9 := by simp [field9, msbFirst]

/-- The bytes of a frame before its checksum, which no variant changes. -/
def operandBytes (hc : HouseCode) (addr cmd data : Byte) : List Byte :=
  [houseHigh hc, houseLow hc, addr, cmd] ++ (if hasData cmd then [data] else [])

section
variable (v : Variant) (hc : HouseCode) (addr cmd data : Byte)

theorem length_operandBytes :
    (operandBytes hc addr cmd data).length = if hasData cmd then 5 else 4 := by
  unfold operandBytes
  split <;> rfl

theorem fieldBytes_eq_operandBytes_append :
    fieldBytes v hc addr cmd data = operandBytes hc addr cmd data ++ [checksum v hc addr cmd data] :=
  rfl

/-- The checksum is the base plus the sum of the bytes before it, modulo 256 (R131). -/
theorem checksum_toNat : (checksum v hc addr cmd data).toNat
    = ((checksumBase v).toNat + ((operandBytes hc addr cmd data).map BitVec.toNat).sum) % 256 := by
  rw [checksum, BitVec.toNat_ofNat, operandBytes]
  cases hasData cmd <;> simp [Nat.add_assoc]

/-- All of a frame but its last ten bits: the sync pattern and the fields of the operand bytes. -/
def frameHead : List Bit := syncBits ++ (operandBytes hc addr cmd data).flatMap field9

/-- The last ten bits of a frame are the checksum's field and the stop bit (R136, R137). -/
theorem frameBits_eq_frameHead_append : frameBits v hc addr cmd data
    = frameHead hc addr cmd data ++ (field9 (checksum v hc addr cmd data) ++ stopBits) := by
  simp [frameBits, frameHead, fieldBytes_eq_operandBytes_append]

theorem length_frameBits_eq_frameHead_add :
    (frameBits v hc addr cmd data).length = (frameHead hc addr cmd data).length + 10 := by
  simp [frameBits_eq_frameHead_append, stopBits]

theorem length_frameHead :
    (frameHead hc addr cmd data).length = 13 + 9 * (operandBytes hc addr cmd data).length := by
  simp [frameHead, syncBits, msbFirst, List.length_flatMap, Nat.mul_comm]

theorem take_frameBits_eq_frameHead :
    (frameBits v hc addr cmd data).take (frameHead hc addr cmd data).length
      = frameHead hc addr cmd data := by
  rw [frameBits_eq_frameHead_append, List.take_left]

end

/-- Settles O13: a frame is its head, which no variant changes, and the last ten bits; the byte list is
the operand bytes and the checksum, which is the base plus their sum. -/
theorem frameIsSyncFieldsStop : Obligations.FrameIsSyncFieldsStop := by
  intro v hc addr cmd data
  simp only [← hasData_iff]
  refine ⟨?_, rfl, ?_, ?_, ?_⟩
  · rw [frameBits, syncBits_eq_zeros_append_one, fieldBytes]
    cases hasData cmd <;> simp [houseHigh, houseLow, stopBits]
  · rw [checksum_toNat, fieldBytes_eq_operandBytes_append, List.dropLast_concat]
  · rw [length_frameBits_eq_frameHead_add, length_frameHead, length_operandBytes]
    split <;> rfl
  · rw [length_frameBits_eq_frameHead_add, Nat.add_sub_cancel, take_frameBits_eq_frameHead,
      take_frameBits_eq_frameHead]

end Sys2Proof.Machine
end

section
/-! Proofs of the statements about the Frame Encoder (40_frame_encoder.md): the checksum, the parity
bit, the byte field and the pulses of a bit. -/

namespace Sys2Proof.Machine

/-! ### The terms of the checksum -/

theorem houseHigh_toNat (hc : HouseCode) : (houseHigh hc).toNat = hc.toNat / 256 := by
  have hlt := hc.isLt
  rw [houseHigh, BitVec.extractLsb'_toNat, Nat.shiftRight_eq_div_pow]
  omega

theorem houseLow_toNat (hc : HouseCode) : (houseLow hc).toNat = hc.toNat % 256 := by
  rw [houseLow, BitVec.extractLsb'_toNat, Nat.shiftRight_zero]

theorem checksumBase_eq_ite (v : Variant) : checksumBase v = if v = .formatA then 6 else 12 := by
  cases v <;> rfl

section
variable (v : Variant) (hc : HouseCode) (addr cmd data : Byte)

/-- The terms of R131 added over the natural numbers, before the reduction modulo 256. -/
def unreducedSum : Nat :=
  (if v = .formatA then 6 else 12) + hc.toNat / 256 + hc.toNat % 256 + addr.toNat + cmd.toNat
    + (if hasData cmd then data.toNat else 0)

theorem checksum_eq_ofNat_unreducedSum :
    checksum v hc addr cmd data = BitVec.ofNat 8 (unreducedSum v hc addr cmd data) := by
  rw [checksum, houseHigh_toNat, houseLow_toNat, unreducedSum]
  cases v <;> rfl

/-- The largest base 12 and five bytes of 255 (R131). -/
theorem unreducedSum_le : unreducedSum v hc addr cmd data ≤ 1287 := by
  have hhc := hc.isLt
  have haddr := addr.isLt
  have hcmd := cmd.isLt
  have hdata := data.isLt
  unfold unreducedSum
  split <;> split <;> omega

/-- Reducing the sum once is adding the terms one at a time modulo 256 (R131). -/
theorem checksum_eq_add : checksum v hc addr cmd data
    = checksumBase v + houseHigh hc + houseLow hc + addr + cmd
      + (if hasData cmd then data else 0) := by
  rw [checksum]
  cases hasData cmd <;> simp [BitVec.ofNat_add]

end

/-- Settles O9: the checksum is the unreduced sum, which is bounded, as a byte; `BitVec.ofNat` carries
addition of numbers to addition of bytes. -/
theorem checksumIsTheWrappingSum : Obligations.ChecksumIsTheWrappingSum := by
  intro v hc addr cmd data
  simp only [← hasData_iff]
  refine ⟨?_, ?_, unreducedSum_le v hc addr cmd data, rfl, rfl, rfl, trivial⟩
  · rw [checksum_eq_ofNat_unreducedSum, BitVec.toNat_ofNat, unreducedSum]
  · rw [checksum_eq_add, checksumBase_eq_ite, houseHigh, houseLow]

/-! ### The byte field and its parity bit -/

/-- The bits of a byte, most significant first (R10). -/
theorem msbFirst_byte (b : Byte) : msbFirst b = [b.getLsbD 7, b.getLsbD 6, b.getLsbD 5, b.getLsbD 4,
    b.getLsbD 3, b.getLsbD 2, b.getLsbD 1, b.getLsbD 0] := rfl

/-- A bit put behind the least significant one is sent last. -/
theorem msbFirst_append_ofBool {n : Nat} (x : BitVec n) (p : Bit) :
    msbFirst (x ++ BitVec.ofBool p) = msbFirst x ++ [p] := by
  have hlast : (x ++ BitVec.ofBool p).getLsbD 0 = p := BitVec.getLsbD_concat_zero
  have hinit : ∀ i ∈ List.range n,
      (x ++ BitVec.ofBool p).getLsbD (n - i) = x.getLsbD (n - 1 - i) := by
    intro i hi
    have hidx : n - i = (n - 1 - i) + 1 := by
      have hlt := List.mem_range.mp hi
      omega
    rw [hidx]
    exact BitVec.getLsbD_concat_succ
  simp only [msbFirst, List.range_succ, List.map_append, List.map_cons, List.map_nil,
    Nat.add_sub_cancel, Nat.sub_self, hlast, List.map_congr_left hinit]

/-- The exclusive or of a list of bits is 1 exactly when the list has an odd number of ones. -/
theorem foldr_xor_iff_count_odd (bits : List Bit) :
    bits.foldr xor false = true ↔ bits.count true % 2 = 1 := by
  induction bits with
  | nil => decide
  | cons b bits ih =>
    cases b with
    | false => simpa using ih
    | true =>
      rw [List.foldr_cons, Bool.true_xor, List.count_cons_self, Bool.not_eq_true', ← Bool.not_eq_true,
        ih]
      omega

theorem parity_eq_foldr_xor (b : Byte) : parity b = (msbFirst b).foldr xor false := by
  simp only [parity, msbFirst_byte, List.foldr_cons, List.foldr_nil, Bool.xor_false, Bool.xor_assoc]

theorem parity_iff_count_odd (b : Byte) : parity b = true ↔ (msbFirst b).count true % 2 = 1 := by
  rw [parity_eq_foldr_xor, foldr_xor_iff_count_odd]

/-- The nine bits of a byte field hold an even number of ones (R132). -/
theorem count_true_field9_even (b : Byte) : (field9 b).count true % 2 = 0 := by
  have hodd := parity_iff_count_odd b
  rw [field9, List.count_append]
  cases hp : parity b <;> simp [hp] at hodd ⊢ <;> omega

/-- The exclusive or of two exclusive ors, its middle terms exchanged. -/
theorem xor_xor_xor_comm (a b c d : Bit) : ((a ^^ b) ^^ (c ^^ d)) = ((a ^^ c) ^^ (b ^^ d)) := by
  rw [Bool.xor_assoc, Bool.xor_left_comm b, ← Bool.xor_assoc]

theorem parity_xor (a b : Byte) : parity (a ^^^ b) = (parity a ^^ parity b) := by
  simp only [parity, BitVec.getLsbD_xor, xor_xor_xor_comm]

/-- Settles O11: the parity is the exclusive or of the list of bits, which counts its ones modulo 2. -/
theorem parityMakesTheOnesEven : Obligations.ParityMakesTheOnesEven := by
  refine ⟨fun b => ⟨rfl, parity_iff_count_odd b, count_true_field9_even b⟩, parity_xor, ?_⟩
  decide

/-- Settles O12: the bits of the byte are named, and the parity bit behind the byte is sent last. -/
theorem byteFieldIsMsbFirstThenParity : Obligations.ByteFieldIsMsbFirstThenParity := by
  refine ⟨fun b => ⟨?_, ?_⟩, by decide⟩
  · rw [field9, msbFirst_byte]
    rfl
  · rw [field9, msbFirst_append_ofBool]

/-! ### The pulses of a bit -/

theorem onDuration_eq (b : Bit) : onDuration b = if b then 750 else 550 := by cases b <;> rfl

theorem offDuration_eq (b : Bit) : offDuration b = if b then 400 else 200 := by cases b <;> rfl

/-- Settles O15: the two pulses of a bit and their durations. -/
theorem pulseDurationsAreExact : Obligations.PulseDurationsAreExact := by
  simp [Obligations.PulseDurationsAreExact, emitBit, onDuration_eq, offDuration_eq]

end Sys2Proof.Machine
end

section
/-! Proofs of the statements about the Transmit Scheduler (41_transmit_scheduler.md): the sequencer's
steps, one Radio Link operation or wait each. -/

namespace Sys2Proof.Machine

/-! ### The Command agent's turn at each position of a send -/

section
variable {s : State} {rep idx : Nat} {b : Bit} (hinit : s.capture.initDone = true)
include hinit

/-- Step `TX_BEGIN` (R162). -/
theorem commandTurn_of_txBegin (hseq : s.command.seq = ⟨.txBegin, rep, idx⟩) :
    commandTurn s = .next (s.rlBegin.goTo .txOn rep 0) := by
  simp [commandTurn, txBegin, hinit, hseq]

/-- Step `TX_ON` (R163). -/
theorem commandTurn_of_txOn (hseq : s.command.seq = ⟨.txOn, rep, idx⟩)
    (hbit : s.frame[idx]? = some b) :
    commandTurn s = .next ((s.rlKey true (onDuration b)).goTo .txOff rep idx) := by
  simp [commandTurn, txOn, State.currentBit, hinit, hseq, hbit]

/-- Step `TX_OFF` (R164); the off-pulse leaves the frame in the latches. -/
theorem commandTurn_of_txOff (hseq : s.command.seq = ⟨.txOff, rep, idx⟩)
    (hbit : s.frame[idx]? = some b) :
    commandTurn s = .next (if idx + 1 < s.frame.length
      then (s.rlKey false (offDuration b)).goTo .txOn rep (idx + 1)
      else (s.rlKey false (offDuration b)).goTo .txEnd rep idx) := by
  have hframe : (s.rlKey false (offDuration b)).frame = s.frame := rfl
  simp [commandTurn, txOff, afterOffPulse, State.currentBit, hinit, hseq, hbit, hframe]

/-- Step `TX_END` (R165). -/
theorem commandTurn_of_txEnd (hseq : s.command.seq = ⟨.txEnd, rep, idx⟩) :
    commandTurn s = .next (s.rlEnd.goTo .txDelay rep 0) := by
  simp [commandTurn, txEnd, hinit, hseq]

/-- Step `TX_DELAY` (R166, R167). -/
theorem commandTurn_of_txDelay (hseq : s.command.seq = ⟨.txDelay, rep, idx⟩) :
    commandTurn s = .next (if rep < 2
      then (s.delayUs repeatDelayUs).goTo .txBegin (rep + 1) 0
      else (s.delayUs repeatDelayUs).goTo .txReact 2 0) := by
  simp [commandTurn, txDelay, hinit, hseq]

/-- Step `TX_REACT` (R168). -/
theorem commandTurn_of_txReact (hseq : s.command.seq = ⟨.txReact, rep, idx⟩) :
    commandTurn s = .next s.rlReactivate.finish := by
  simp [commandTurn, txReact, hinit, hseq]

end

/-- Settles O26: each clause is the turn at its position, with the durations of the pulses as numbers;
after an off-pulse and after a wait the two places `SEQ` can go are taken apart. -/
theorem sequencerStepsOfASend : Obligations.SequencerStepsOfASend := by
  intro s rep idx hinit f
  refine ⟨commandTurn_of_txBegin hinit, fun b hseq hbit => ?_, fun b hseq hbit => ?_,
    commandTurn_of_txEnd hinit, fun hseq => ?_,
    fun hseq => ⟨_, commandTurn_of_txReact hinit hseq, rfl, rfl, rfl, rfl⟩⟩
  · rw [commandTurn_of_txOn hinit hseq hbit, onDuration_eq]
    rfl
  · rw [commandTurn_of_txOff hinit hseq hbit, offDuration_eq, State.frame]
    split <;> rfl
  · rw [commandTurn_of_txDelay hinit hseq]
    split <;> rfl

end Sys2Proof.Machine
end

section
/-! Proofs of the statements about Receiver Tuning and the debug flag (42_tuning_and_debug.md): the
combined transaction of the `TUNE` step. -/

namespace Sys2Proof.Machine

/-- The Command agent's turn at position `TUNE` (R182). -/
theorem commandTurn_of_tune {s : State} (hinit : s.capture.initDone = true)
    (hst : s.command.seq.st = .tune) : commandTurn s = .next (tune s) := by
  simp [commandTurn, hinit, hst]

/-- The frame of the `TUNE` step: the descriptor, the transmit trace and the results change, and
beside them only the Command agent's own registers (R182, R183). -/
theorem tune_frame (s : State) :
    { tune s with command := s.command } = { s with
      radio := { s.radio with desc := ⟨s.radio.desc.bandwidth, tuneGain s, tuneDrssi s⟩ },
      txTrace := s.txTrace ++ [.rlSetBGD s.radio.desc.bandwidth (tuneGain s) (tuneDrssi s)],
      results := s.results ++ [.ok] } := rfl

/-- The Command agent's registers after the `TUNE` step: `BUSY` and `SEQ` are reset, the others kept. -/
theorem tune_command (s : State) :
    (tune s).command = { s.command with busy := false, seq := ⟨.idle, 0, 0⟩ } := rfl

/-- Settles O27: the turn at position `TUNE` is the `TUNE` step; its frame gives the transaction, its
Command registers the end of the command. The two fields of the statement are `tuneGain` and
`tuneDrssi`. -/
theorem tuneStepWritesAllThreeFieldsBack : Obligations.TuneStepWritesAllThreeFieldsBack := by
  intro s hinit hst g d
  refine ⟨tune s, commandTurn_of_tune hinit hst, tune_frame s, ?_, ?_, ?_⟩ <;> rw [tune_command]

end Sys2Proof.Machine
end

section
/-! Proofs of the statements about the Timing Base (43_timing_base.md): the tick step, the counter over a
run, and the choice of the prescaler. The frames of the turns come first. -/

namespace Sys2Proof.Machine

/-! ### What a turn of each agent leaves unchanged -/

/-- An accept step writes the Command agent's registers and the results, and nothing else. -/
theorem accept_frame {w : CommandWord} {s t : State} (h : accept w s = .next t) :
    t = { s with command := t.command, results := t.results } := by
  obtain ⟨v, hc, ad, cm, da, rfl⟩ | ⟨k, v, -, rfl⟩ | ⟨v, -, rfl⟩ | rfl := accept_inv h <;> rfl

/-- The Command agent's turn leaves the receive side, the configuration and the build alone. -/
theorem commandTurn_frame {s t : State} (h : commandTurn s = .next t) :
    t = { s with command := t.command, radio := t.radio, port := t.port, txTrace := t.txTrace,
                 results := t.results } := by
  obtain rfl | ⟨-, hturn⟩ := commandTurn_inv h
  · rfl
  obtain ⟨-, -, w, -, hacc⟩ | ⟨-, rfl⟩ | ⟨-, b, -, rfl⟩ | ⟨-, b, -, rfl⟩ | ⟨-, rfl⟩ | ⟨-, rfl⟩ | ⟨-, rfl⟩
    | ⟨-, rfl⟩ := hturn
  · rw [accept_frame hacc]; rfl
  · rfl
  · rfl
  · obtain ⟨-, hgo⟩ | ⟨-, hgo⟩ := afterOffPulse_cases (s.rlKey false (offDuration b)) s.command.seq
      <;> rw [hgo] <;> rfl
  · rfl
  · obtain ⟨-, hgo⟩ | ⟨-, hgo⟩ := txDelay_cases s <;> rw [hgo] <;> rfl
  · rfl
  · rfl

/-- Raising an interrupt writes the Capture agent's registers only. -/
theorem raiseInterrupt_frame (s : State) (src : Source) :
    s.raiseInterrupt src = { s with capture := (s.raiseInterrupt src).capture } := by
  cases src <;> simp only [State.raiseInterrupt] <;> split <;> rfl

/-- The Capture agent's turn writes its registers and the decoder's events, and nothing else. -/
theorem captureTurn_frame (s : State) :
    captureTurn s
      = { s with capture := (captureTurn s).capture, rxTrace := (captureTurn s).rxTrace } := by
  obtain ⟨-, ht⟩ | ⟨-, -, ht⟩ | ⟨-, -, ht⟩ | ⟨-, -, -, ht⟩ | ⟨-, -, -, -, ht⟩ := captureTurn_cases s
    <;> rw [ht]
  case inr.inr.inl =>
    simp only [serviceEdge, State.mirrorEdge]
    split <;> rfl
  all_goals rfl

/-- An edge writes the input and the Capture agent's registers, and nothing else. -/
theorem edge_frame (s : State) :
    edge s = { s with rx := !s.rx, capture := (edge s).capture } := by
  obtain ⟨-, ht⟩ | ⟨-, ht⟩ := edge_cases s <;> rw [ht]
  · exact raiseInterrupt_frame s.toggleRx .edge
  · rfl

/-- A tick writes the counter and the Capture agent's registers, and nothing else. -/
theorem tick_frame (s : State) :
    tick s = { s with tcnt := s.tcnt + 1, capture := (tick s).capture } := by
  obtain ⟨-, -, ht⟩ | ⟨-, ht⟩ := tick_cases s <;> rw [ht]
  · exact raiseInterrupt_frame s.advanceCounter .cmp
  · rfl

theorem cfgReadTurn_frame (n : Fin 8) (s : State) :
    cfgReadTurn n s = { s with cfgData := (cfgReadTurn n s).cfgData } := by
  simp only [cfgReadTurn]
  split <;> rfl

theorem cfgWriteTurn_frame (n : Fin 8) (v : Byte) (s : State) :
    cfgWriteTurn n v s = { s with config := (cfgWriteTurn n v s).config } := by
  simp only [cfgWriteTurn]
  split
  · exact cfgWrite_eq n v s
  · rfl

/-- No turn writes the build parameters, and only the tick writes the counter (R208). -/
theorem takeTurn_params_tcnt {m : Config.Move} {s t : State} (h : takeTurn m s = .next t) :
    t.params = s.params ∧ t.tcnt = if m = .tick then s.tcnt + 1 else s.tcnt := by
  cases m with
  | command => rw [commandTurn_frame h]; exact ⟨rfl, rfl⟩
  | capture => cases h; rw [captureTurn_frame]; exact ⟨rfl, rfl⟩
  | tick => cases h; rw [tick_frame]; exact ⟨rfl, rfl⟩
  | edge => cases h; rw [edge_frame]; exact ⟨rfl, rfl⟩
  | present w => cases h; exact ⟨rfl, rfl⟩
  | withdraw => cases h; exact ⟨rfl, rfl⟩
  | cfgRead n => cases h; rw [cfgReadTurn_frame]; exact ⟨rfl, rfl⟩
  | cfgWrite n v => cases h; rw [cfgWriteTurn_frame]; exact ⟨rfl, rfl⟩

theorem takeTurn_tcnt_of_ne_tick {m : Config.Move} {s t : State} (hm : m ≠ .tick)
    (h : takeTurn m s = .next t) : t.tcnt = s.tcnt :=
  (takeTurn_params_tcnt h).2.trans (if_neg hm)

/-! ### The tick step and the compare -/

/-- The edge interrupt is no compare match. -/
theorem raiseInterrupt_edge_cmpPend (s : State) :
    (s.raiseInterrupt .edge).capture.cmpPend = s.capture.cmpPend := by
  simp only [State.raiseInterrupt]
  split <;> rfl

theorem edge_cmpPend (s : State) : (edge s).capture.cmpPend = s.capture.cmpPend := by
  obtain ⟨-, ht⟩ | ⟨-, ht⟩ := edge_cases s <;> rw [ht]
  · exact raiseInterrupt_edge_cmpPend s.toggleRx
  · rfl

/-- Servicing an interrupt raises no compare match. -/
theorem captureTurn_cmpPend {s : State} (h : s.capture.cmpPend = false) :
    (captureTurn s).capture.cmpPend = false := by
  obtain ⟨-, ht⟩ | ⟨-, -, ht⟩ | ⟨-, -, ht⟩ | ⟨-, -, -, ht⟩ | ⟨-, -, -, -, ht⟩ := captureTurn_cases s
    <;> rw [ht]
  · exact h
  · exact h
  · simp [serviceEdge, mirrorEdge_capture, h]
  · simp [serviceTimeout, h]
  · exact h

/-- The compare is made by the tick and nowhere else (R200, R230). -/
theorem takeTurn_cmpPend_of_ne_tick {m : Config.Move} {s t : State} (hm : m ≠ .tick)
    (h : takeTurn m s = .next t) (hpend : s.capture.cmpPend = false) :
    t.capture.cmpPend = false := by
  cases m with
  | command => rw [commandTurn_frame h]; exact hpend
  | capture => cases h; exact captureTurn_cmpPend hpend
  | tick => exact absurd rfl hm
  | edge => cases h; rw [edge_cmpPend, hpend]
  | present w => cases h; exact hpend
  | withdraw => cases h; exact hpend
  | cfgRead n => cases h; rw [cfgReadTurn_frame]; exact hpend
  | cfgWrite n v => cases h; rw [cfgWriteTurn_frame]; exact hpend

/-- A tick without a match, or with the match already pending, only counts (R200, R230). -/
theorem tick_of_no_new_match {s : State} (h : s.tcnt + 1 ≠ s.config.ocr ∨ s.config.cmpIe = false
    ∨ s.capture.cmpPend = true) : tick s = { s with tcnt := s.tcnt + 1 } := by
  obtain ⟨hocr, hie, ht⟩ | ⟨-, ht⟩ := tick_cases s
  · have hpend : s.capture.cmpPend = true :=
      (h.resolve_left (not_not_intro hocr)).resolve_left (by simp [hie])
    rw [ht]
    exact if_pos hpend
  · exact ht

/-- A tick that reaches the compare value with the match enabled raises it (R230). -/
theorem tick_of_new_match {s : State} (hocr : s.tcnt + 1 = s.config.ocr)
    (hie : s.config.cmpIe = true) (hpend : s.capture.cmpPend = false) :
    tick s = { s with tcnt := s.tcnt + 1, capture := { s.capture with
      cmpPend := true, first := if s.capture.edgePend then .edge else s.capture.first } } := by
  obtain ⟨-, -, ht⟩ | ⟨hno, -⟩ := tick_cases s
  · rw [ht]
    exact if_neg (by simp [hpend])
  · exact absurd hno (not_or_intro (not_not_intro hocr) (by simp [hie]))

/-- Settles O33: the two kinds of tick, and the two frames of every other turn. -/
theorem tickAdvancesAndCompares : Obligations.TickAdvancesAndCompares := by
  intro s
  refine ⟨fun h => ?_, fun hocr hie hpend => ?_, fun m t hm h =>
    ⟨takeTurn_tcnt_of_ne_tick hm h, takeTurn_cmpPend_of_ne_tick hm h⟩⟩
  · rw [takeTurn_tick, tick_of_no_new_match h]
  · rw [takeTurn_tick, tick_of_new_match hocr hie hpend]

/-- Settles O34, by induction on the turns: a tick adds one, every other turn keeps the counter. -/
theorem counterCountsTicksOnly : Obligations.CounterCountsTicksOnly := by
  intro ms
  induction ms with
  | nil => intro s t h; cases h; simp
  | cons m ms ih =>
    intro s t h
    obtain ⟨u, hu, hrun⟩ := runMoves_cons_inv h
    obtain ⟨-, htcnt⟩ := takeTurn_params_tcnt hu
    rw [ih u t hrun, htcnt]
    by_cases hm : m = .tick
    · subst hm
      rw [if_pos rfl, List.count_cons_self, Nat.add_comm, BitVec.ofNat_add, ← BitVec.add_assoc]
      rfl
    · rw [if_neg hm, List.count_cons_of_ne hm]

/-! ### The choice of the prescaler -/

/-- The fit criterion as numbers (R202, R205): the longest pulse takes fewer than 255 ticks. -/
theorem fits_iff (p : Config.Params) (P : Nat) :
    fits p P = true ↔ 1500 * p.fClkHz / (P * 1000000) < 255 :=
  decide_eq_true_iff

/-- A larger prescaler gives no more ticks. -/
theorem usToTicksWith_antitone (p : Config.Params) {P Q : Nat} (hP : 0 < P) (hPQ : P ≤ Q) (us : Nat) :
    usToTicksWith p Q us ≤ usToTicksWith p P us :=
  Nat.div_le_div_left (Nat.mul_le_mul_right _ hPQ) (by omega)

/-- Every prescaler above one that fits, fits too. -/
theorem fits_of_le {p : Config.Params} {P Q : Nat} (hP : 0 < P) (hPQ : P ≤ Q)
    (h : fits p P = true) : fits p Q = true := by
  simp only [fits, decide_eq_true_eq] at h ⊢
  exact (usToTicksWith_antitone p hP hPQ maxPulseUs).trans_lt h

/-- Of increasing candidates, those below the prescaler do not fit (R203). -/
theorem not_fits_of_lt_prescaler {p : Config.Params} {P Q : Nat}
    (hsort : p.prescalerCandidates.Pairwise (· < ·)) (h : prescaler? p = some P)
    (hQ : Q ∈ p.prescalerCandidates) (hlt : Q < P) : ¬fits p Q = true := by
  obtain ⟨-, before, after, hlist, hbefore⟩ := List.find?_eq_some_iff_append.mp h
  rw [hlist] at hsort hQ
  obtain hQ | hQ := List.mem_append.mp hQ
  · simpa using hbefore Q hQ
  · obtain rfl | hQ := List.mem_cons.mp hQ
    · exact absurd hlt (Nat.lt_irrefl Q)
    · have hgt : P < Q := List.rel_of_pairwise_cons (List.pairwise_append.mp hsort).2.1 hQ
      omega

/-- A well-formed build has parameters of the types of R9 and a prescaler (R204). -/
theorem wellFormedBuild_iff (p : Config.Params) :
    wellFormedBuild p = true ↔ 0 < p.fClkHz ∧ p.prescalerCandidates ≠ []
      ∧ (∀ P ∈ p.prescalerCandidates, 0 < P) ∧ p.prescalerCandidates.Pairwise (· < ·)
      ∧ ∃ P ∈ p.prescalerCandidates, fits p P = true := by
  simp [wellFormedBuild, prescaler?, and_assoc]

/-- Settles O37: below the prescaler no candidate fits, from it on every candidate does. -/
theorem prescalerIsTheSmallestThatFits : Obligations.PrescalerIsTheSmallestThatFits := by
  refine ⟨fun p P hwf hP => ?_, fun m s t h => congrArg prescaler? (takeTurn_params_tcnt h).1, by decide⟩
  obtain ⟨-, -, hpos, hsort, -⟩ := (wellFormedBuild_iff p).mp hwf
  have hmem : P ∈ p.prescalerCandidates := List.mem_of_find?_eq_some hP
  have hfits : fits p P = true := List.find?_some hP
  refine ⟨hmem, (fits_iff p P).mp hfits, fun Q hQ => ?_, fun Q _ => fits_iff p Q⟩
  rw [← fits_iff]
  constructor
  · exact not_fits_of_lt_prescaler hsort hP hQ
  · intro hno
    by_contra hle
    exact hno (fits_of_le (hpos P hmem) (not_lt.mp hle) hfits)

/-- Settles O38: a launch answers exactly for a well-formed build. -/
theorem buildFailsWhenNoCandidateFits : Obligations.BuildFailsWhenNoCandidateFits := by
  intro p v
  simp only [← fits_iff]
  constructor
  · intro hnone
    refine if_neg fun hwf => ?_
    obtain ⟨-, -, -, -, P, hP, hfits⟩ := (wellFormedBuild_iff p).mp hwf
    exact hnone P hP hfits
  · intro hclk hsort hpos ⟨P, hP, hfits⟩
    have hwf : wellFormedBuild p = true :=
      (wellFormedBuild_iff p).mpr ⟨hclk, List.ne_nil_of_mem hP, hpos, hsort, P, hP, hfits⟩
    exact launch_eq_some_iff.mpr ⟨hwf, rfl⟩

end Sys2Proof.Machine
end

section
/-! Proofs of the statements about interrupts (60_exceptions.md): the edge step, the two service steps,
the return step, and the order of service. -/

namespace Sys2Proof.Machine

/-! ### The edge step -/

/-- A transition that is not enabled, or with the edge already pending, changes the input only (R229). -/
theorem edge_of_no_new_edge {s : State} (h : s.config.edgeIe = false ∨ s.capture.edgePend = true) :
    edge s = { s with rx := !s.rx } := by
  obtain ⟨hie, ht⟩ | ⟨-, ht⟩ := edge_cases s
  · have hpend : s.capture.edgePend = true := h.resolve_left (by simp [hie])
    rw [ht]
    exact if_pos hpend
  · exact ht

/-- An enabled transition with no edge pending raises it (R229). -/
theorem edge_of_new_edge {s : State} (hie : s.config.edgeIe = true)
    (hpend : s.capture.edgePend = false) :
    edge s = { s with rx := !s.rx, capture := { s.capture with
      edgePend := true, first := if s.capture.cmpPend then .cmp else s.capture.first } } := by
  obtain ⟨-, ht⟩ | ⟨hno, -⟩ := edge_cases s
  · rw [ht]
    exact if_neg (by simp [hpend])
  · simp [hie] at hno

/-- Settles O41: the two kinds of transition. -/
theorem edgeStepRaisesOnce : Obligations.EdgeStepRaisesOnce := by
  intro s
  refine ⟨fun h => ?_, fun hie hpend => ?_⟩
  · rw [takeTurn_edge, edge_of_no_new_edge h]
  · rw [takeTurn_edge, edge_of_new_edge hie hpend]

/-! ### The service steps and the return step -/

theorem edgeServiceEnabled_iff (s : State) : edgeServiceEnabled s = true ↔
    s.capture.initDone = true ∧ s.capture.edgePend = true ∧ s.capture.inIrq = false
      ∧ (s.capture.cmpPend = false ∨ s.capture.first = .edge) := by
  simp [edgeServiceEnabled, and_assoc]

theorem timeoutServiceEnabled_iff (s : State) : timeoutServiceEnabled s = true ↔
    s.capture.initDone = true ∧ s.capture.cmpPend = true ∧ s.capture.inIrq = false
      ∧ (s.capture.edgePend = false ∨ s.capture.first = .cmp) := by
  simp [timeoutServiceEnabled, and_assoc]

/-- `FIRST` has one value, so at most one source is serviced (R238). -/
theorem edgeServiceEnabled_eq_false_of_timeoutServiceEnabled {s : State}
    (h : timeoutServiceEnabled s = true) : edgeServiceEnabled s = false := by
  obtain ⟨-, hcmp, -, horder⟩ := (timeoutServiceEnabled_iff s).mp h
  rw [← Bool.not_eq_true, edgeServiceEnabled_iff]
  rintro ⟨-, hedge, -, hcmp' | hfirst⟩
  · simp [hcmp] at hcmp'
  · simp [hedge, hfirst] at horder

/-- The edge service step as one update of the state (R231). -/
theorem serviceEdge_eq (s : State) : serviceEdge s = { s with
    capture := { s.capture with
      edgePend := false, inIrq := true,
      statusInd := if s.params.mirrorEdge then s.rx else s.capture.statusInd },
    rxTrace := s.rxTrace ++ [.onEdge s.tcnt s.rx] } := by
  simp only [serviceEdge, State.mirrorEdge, State.enterHandler, State.emitRx]
  split <;> simp

/-- The timeout service step as one update of the state (R236). -/
theorem serviceTimeout_eq (s : State) : serviceTimeout s = { s with
    capture := { s.capture with cmpPend := false, inIrq := true },
    rxTrace := s.rxTrace ++ [.onTimeout] } := by
  simp [serviceTimeout, State.enterHandler, State.emitRx]

theorem captureTurn_of_edgeServiceEnabled {s : State} (h : edgeServiceEnabled s = true) :
    captureTurn s = serviceEdge s := by
  obtain ⟨hinit, -, hirq, -⟩ := (edgeServiceEnabled_iff s).mp h
  simp [captureTurn, returnEnabled, hinit, hirq, h]

theorem captureTurn_of_timeoutServiceEnabled {s : State} (h : timeoutServiceEnabled s = true) :
    captureTurn s = serviceTimeout s := by
  obtain ⟨hinit, -, hirq, -⟩ := (timeoutServiceEnabled_iff s).mp h
  simp [captureTurn, returnEnabled, hinit, hirq, h,
    edgeServiceEnabled_eq_false_of_timeoutServiceEnabled h]

theorem captureTurn_of_inIrq {s : State} (hinit : s.capture.initDone = true)
    (hirq : s.capture.inIrq = true) : captureTurn s = s.leaveHandler := by
  simp [captureTurn, returnEnabled, hinit, hirq]

/-- With no handler running, a pending interrupt finds one of the two services enabled (R238). -/
theorem serviceEnabled_of_pending {s : State} (hinit : s.capture.initDone = true)
    (hirq : s.capture.inIrq = false)
    (hpend : s.capture.edgePend = true ∨ s.capture.cmpPend = true) :
    edgeServiceEnabled s = true ∨ timeoutServiceEnabled s = true := by
  cases hfirst : s.capture.first with
  | edge =>
    by_cases hedge : s.capture.edgePend = true
    · exact .inl ((edgeServiceEnabled_iff s).mpr ⟨hinit, hedge, hirq, .inr hfirst⟩)
    · exact .inr ((timeoutServiceEnabled_iff s).mpr
        ⟨hinit, hpend.resolve_left hedge, hirq, .inl (by simpa using hedge)⟩)
  | cmp =>
    by_cases hcmp : s.capture.cmpPend = true
    · exact .inr ((timeoutServiceEnabled_iff s).mpr ⟨hinit, hcmp, hirq, .inr hfirst⟩)
    · exact .inl ((edgeServiceEnabled_iff s).mpr
        ⟨hinit, hpend.resolve_right hcmp, hirq, .inl (by simpa using hcmp)⟩)

/-- A Capture turn that services no edge forwards no edge event and clears no pending edge. -/
theorem captureTurn_of_not_edgeServiceEnabled {s : State} (h : ¬edgeServiceEnabled s = true)
    (k : Byte) (r : Bool) :
    (captureTurn s).rxTrace.count (.onEdge k r) = s.rxTrace.count (.onEdge k r)
      ∧ (captureTurn s).capture.edgePend = s.capture.edgePend := by
  obtain ⟨-, ht⟩ | ⟨-, -, ht⟩ | ⟨he, -⟩ | ⟨-, -, -, ht⟩ | ⟨-, -, -, -, ht⟩ := captureTurn_cases s
  · simp [ht, init]
  · simp [ht]
  · exact absurd he h
  · simp [ht, serviceTimeout_eq]
  · simp [ht]

/-- A Capture turn that services no timeout forwards no timeout and clears no pending match. -/
theorem captureTurn_of_not_timeoutServiceEnabled {s : State} (h : ¬timeoutServiceEnabled s = true) :
    (captureTurn s).rxTrace.count .onTimeout = s.rxTrace.count .onTimeout
      ∧ (captureTurn s).capture.cmpPend = s.capture.cmpPend := by
  obtain ⟨-, ht⟩ | ⟨-, -, ht⟩ | ⟨-, -, ht⟩ | ⟨-, hto, -⟩ | ⟨-, -, -, -, ht⟩ := captureTurn_cases s
  · simp [ht, init]
  · simp [ht]
  · simp [ht, serviceEdge_eq]
  · exact absurd hto h
  · simp [ht]

/-! ### What the turns of the other agents keep of the Capture agent -/

/-- From `s` to `t` no event is forwarded, no handler is entered or left, every pending interrupt
stays pending, and the order of two pending ones stays what it is. -/
structure KeepsPending (s t : State) : Prop where
  rxTrace : t.rxTrace = s.rxTrace
  initDone : t.capture.initDone = s.capture.initDone
  inIrq : t.capture.inIrq = s.capture.inIrq
  edgePend : s.capture.edgePend = true → t.capture.edgePend = true
  cmpPend : s.capture.cmpPend = true → t.capture.cmpPend = true
  first : s.capture.edgePend = true → s.capture.cmpPend = true → t.capture.first = s.capture.first

theorem KeepsPending.of_capture_eq {s t : State} (hcap : t.capture = s.capture)
    (hrx : t.rxTrace = s.rxTrace) : KeepsPending s t := by
  constructor <;> simp +contextual [hcap, hrx]

theorem KeepsPending.trans {s t u : State} (h : KeepsPending s t) (h' : KeepsPending t u) :
    KeepsPending s u where
  rxTrace := h'.rxTrace.trans h.rxTrace
  initDone := h'.initDone.trans h.initDone
  inIrq := h'.inIrq.trans h.inIrq
  edgePend he := h'.edgePend (h.edgePend he)
  cmpPend hc := h'.cmpPend (h.cmpPend hc)
  first he hc := (h'.first (h.edgePend he) (h.cmpPend hc)).trans (h.first he hc)

theorem raiseInterrupt_keepsPending (s : State) (src : Source) :
    KeepsPending s (s.raiseInterrupt src) := by
  obtain ⟨hcap, -⟩ | ⟨-, hpend, hcap⟩ | ⟨-, hpend, hcap⟩ := raiseInterrupt_capture s src
  · exact .of_capture_eq hcap (s.raiseInterrupt_rxTrace src)
  all_goals constructor <;> simp [hcap, hpend]

/-- Only the Capture agent's turn forwards an event or takes a pending interrupt (R231, R236). -/
theorem takeTurn_keepsPending {m : Config.Move} {s t : State} (hm : m ≠ .capture)
    (h : takeTurn m s = .next t) : KeepsPending s t := by
  cases m with
  | command => rw [commandTurn_frame h]; exact .of_capture_eq rfl rfl
  | capture => exact absurd rfl hm
  | tick =>
    cases h
    have hcount : KeepsPending s s.advanceCounter := .of_capture_eq rfl rfl
    obtain ⟨-, -, ht⟩ | ⟨-, ht⟩ := tick_cases s <;> rw [ht]
    · exact hcount.trans (raiseInterrupt_keepsPending _ _)
    · exact hcount
  | edge =>
    cases h
    have htoggle : KeepsPending s s.toggleRx := .of_capture_eq rfl rfl
    obtain ⟨-, ht⟩ | ⟨-, ht⟩ := edge_cases s <;> rw [ht]
    · exact htoggle.trans (raiseInterrupt_keepsPending _ _)
    · exact htoggle
  | present w => cases h; exact .of_capture_eq rfl rfl
  | withdraw => cases h; exact .of_capture_eq rfl rfl
  | cfgRead n => cases h; rw [cfgReadTurn_frame]; exact .of_capture_eq rfl rfl
  | cfgWrite n v => cases h; rw [cfgWriteTurn_frame]; exact .of_capture_eq rfl rfl

/-- No turn undoes the init step (R272). -/
theorem takeTurn_initDone {m : Config.Move} {s t : State} (hinit : s.capture.initDone = true)
    (h : takeTurn m s = .next t) : t.capture.initDone = true := by
  by_cases hm : m = .capture
  · subst hm
    cases h
    obtain ⟨-, ht⟩ | ⟨-, -, ht⟩ | ⟨-, -, ht⟩ | ⟨-, -, -, ht⟩ | ⟨-, -, -, -, ht⟩ := captureTurn_cases s
    · rw [ht]; rfl
    · rw [ht]; exact hinit
    · rw [ht, serviceEdge_eq]; exact hinit
    · rw [ht, serviceTimeout_eq]; exact hinit
    · rw [ht]; exact hinit
  · exact (takeTurn_keepsPending hm h).initDone.trans hinit

theorem runMoves_keepsPending {ms : List Config.Move} {s t : State} (hms : .capture ∉ ms)
    (h : runMoves ms s = .next t) : KeepsPending s t := by
  induction ms generalizing s with
  | nil => cases h; exact .of_capture_eq rfl rfl
  | cons m ms ih =>
    obtain ⟨hm, hms⟩ := List.ne_and_not_mem_of_not_mem_cons hms
    obtain ⟨u, hu, hrun⟩ := runMoves_cons_inv h
    exact (takeTurn_keepsPending hm.symm hu).trans (ih hms hrun)

/-! ### The statements about service -/

/-- Settles O42: where it is enabled the turn is the edge service step; any other turn is of another
agent, or is a Capture turn that services no edge. -/
theorem edgeServiceForwardsTheSnapshot : Obligations.EdgeServiceForwardsTheSnapshot := by
  intro s
  refine ⟨fun hinit hpend hirq horder => ?_, fun m t k r h hno => ?_⟩
  · rw [takeTurn_capture, captureTurn_of_edgeServiceEnabled
      ((edgeServiceEnabled_iff s).mpr ⟨hinit, hpend, hirq, horder⟩), serviceEdge_eq]
  · by_cases hm : m = .capture
    · subst hm
      cases h
      rw [← edgeServiceEnabled_iff] at hno
      obtain ⟨hcount, hkeep⟩ := captureTurn_of_not_edgeServiceEnabled (fun he => hno ⟨rfl, he⟩) k r
      exact ⟨hcount, hkeep.trans⟩
    · have hkeep := takeTurn_keepsPending hm h
      exact ⟨by rw [hkeep.rxTrace], hkeep.edgePend⟩

/-- Settles O43: as for the edge service step. -/
theorem timeoutServiceForwardsNoValue : Obligations.TimeoutServiceForwardsNoValue := by
  intro s
  refine ⟨fun hinit hpend hirq horder => ?_, fun m t h hno => ?_⟩
  · rw [takeTurn_capture, captureTurn_of_timeoutServiceEnabled
      ((timeoutServiceEnabled_iff s).mpr ⟨hinit, hpend, hirq, horder⟩), serviceTimeout_eq]
  · by_cases hm : m = .capture
    · subst hm
      cases h
      rw [← timeoutServiceEnabled_iff] at hno
      obtain ⟨hcount, hkeep⟩ :=
        captureTurn_of_not_timeoutServiceEnabled (fun hto => hno ⟨rfl, hto⟩)
      exact ⟨hcount, hkeep.trans⟩
    · have hkeep := takeTurn_keepsPending hm h
      exact ⟨by rw [hkeep.rxTrace], hkeep.cmpPend⟩

/-- With no handler running and an interrupt pending, the Capture agent's turn enters a handler and
forwards one event of a source. -/
theorem captureTurn_of_pending {s : State} (hinit : s.capture.initDone = true)
    (hirq : s.capture.inIrq = false)
    (hpend : s.capture.edgePend = true ∨ s.capture.cmpPend = true) :
    (captureTurn s).capture.inIrq = true
      ∧ ∃ e, e ≠ .onInit ∧ (captureTurn s).rxTrace = s.rxTrace ++ [e] := by
  obtain he | hto := serviceEnabled_of_pending hinit hirq hpend
  · rw [captureTurn_of_edgeServiceEnabled he, serviceEdge_eq]
    exact ⟨rfl, _, DecEvent.noConfusion, rfl⟩
  · rw [captureTurn_of_timeoutServiceEnabled hto, serviceTimeout_eq]
    exact ⟨rfl, _, DecEvent.noConfusion, rfl⟩

/-- Settles O44: in a handler the Capture agent's turn is the return step, after which what is pending
is serviced; every other turn keeps what is pending. -/
theorem handlersReturnAndDoNotNest : Obligations.HandlersReturnAndDoNotNest := by
  intro s hinit hirq
  have hreturn := captureTurn_of_inIrq hinit hirq
  refine ⟨congrArg _ hreturn, fun hpend t u ht hu => ?_, fun m t h => ?_⟩
  · cases ht
    cases hu
    rw [hreturn]
    exact captureTurn_of_pending (s := s.leaveHandler) hinit rfl hpend
  · by_cases hm : m = .capture
    · subst hm
      cases h
      rw [hreturn]
      exact ⟨rfl, id, id, absurd rfl, fun _ => rfl⟩
    · have hkeep := takeTurn_keepsPending hm h
      exact ⟨hkeep.rxTrace, hkeep.edgePend, hkeep.cmpPend, fun _ => hkeep.inIrq.trans hirq,
        fun hm' => absurd hm' hm⟩

/-- Settles O45: the second interrupt raised records the first in `FIRST`, the turns of the other
agents keep that, and the service step it enables is the one taken. -/
theorem oldestPendingInterruptIsServicedFirst : Obligations.OldestPendingInterruptIsServicedFirst := by
  intro s t u ms hinit hirq hms
  refine ⟨fun hedge hcmp hie hocr hrun hu => ?_, fun hcmp hedge hie hrun hu => ?_,
    fun hedge hcmp hu => ?_, fun hcmp hedge hu => ?_⟩
  · have hkeep := runMoves_keepsPending hms ((runMoves_cons_next (takeTurn_tick s)).symm.trans hrun)
    rw [tick_of_new_match hocr hie hcmp] at hkeep
    have hfirst : t.capture.first = .edge := (hkeep.first hedge rfl).trans (if_pos hedge)
    have hservice : edgeServiceEnabled t = true := (edgeServiceEnabled_iff t).mpr
      ⟨hkeep.initDone.trans hinit, hkeep.edgePend hedge, hkeep.inIrq.trans hirq, .inr hfirst⟩
    cases hu
    rw [captureTurn_of_edgeServiceEnabled hservice, serviceEdge_eq]
    exact ⟨rfl, hkeep.rxTrace, rfl, hkeep.cmpPend rfl⟩
  · have hkeep := runMoves_keepsPending hms ((runMoves_cons_next (takeTurn_edge s)).symm.trans hrun)
    rw [edge_of_new_edge hie hedge] at hkeep
    have hfirst : t.capture.first = .cmp := (hkeep.first rfl hcmp).trans (if_pos hcmp)
    have hservice : timeoutServiceEnabled t = true := (timeoutServiceEnabled_iff t).mpr
      ⟨hkeep.initDone.trans hinit, hkeep.cmpPend hcmp, hkeep.inIrq.trans hirq, .inr hfirst⟩
    cases hu
    rw [captureTurn_of_timeoutServiceEnabled hservice, serviceTimeout_eq]
    exact ⟨rfl, hkeep.rxTrace, rfl, hkeep.edgePend rfl⟩
  · cases hu
    rw [captureTurn_of_edgeServiceEnabled
      ((edgeServiceEnabled_iff s).mpr ⟨hinit, hedge, hirq, .inl hcmp⟩), serviceEdge_eq]
  · cases hu
    rw [captureTurn_of_timeoutServiceEnabled
      ((timeoutServiceEnabled_iff s).mpr ⟨hinit, hcmp, hirq, .inl hedge⟩), serviceTimeout_eq]

end Sys2Proof.Machine
end

section
/-! Proof of the independence of the Command agent and the Capture agent (60_exceptions.md rule R243).
Each side's turns do the same whatever the other side holds, and leave what the other side holds. -/

namespace Sys2Proof.Machine

/-! ### The two sides of a state

The value a configuration read returned is the model's own (log 8) and may show either side (register 5
reads `BUSY`), so each of the two updates takes it over. -/

/-- `s` with the transmit side of `a`. -/
def State.withTransmit (s a : State) : State :=
  { s with command := a.command, radio := a.radio, port := a.port, cfgData := a.cfgData,
           txTrace := a.txTrace, results := a.results }

/-- `s` with the receive side of `b`. -/
def State.withReceive (s b : State) : State :=
  { s with tcnt := b.tcnt, config := b.config, capture := b.capture, rx := b.rx,
           cfgData := b.cfgData, rxTrace := b.rxTrace }

/-- The states differ in the transmit side only. -/
def SameReceive (s u : State) : Prop := ∃ a, u = s.withTransmit a

/-- The states differ in the receive side only, and both are past the init step, which gates the
Command agent (log 10). -/
def SameTransmit (s u : State) : Prop :=
  s.capture.initDone = true ∧ ∃ b, b.capture.initDone = true ∧ u = s.withReceive b

/-! ### The receive side's turns do not see the transmit side -/

section
variable (s a : State)

theorem withTransmit_ite (c : Prop) [Decidable c] (x y : State) :
    (if c then x else y).withTransmit a
      = if c then x.withTransmit a else y.withTransmit a :=
  apply_ite (State.withTransmit · a) c x y

theorem raiseInterrupt_withTransmit (src : Source) :
    (s.withTransmit a).raiseInterrupt src = (s.raiseInterrupt src).withTransmit a := by
  cases src <;> simp only [State.raiseInterrupt, withTransmit_ite] <;> rfl

theorem tick_withTransmit : tick (s.withTransmit a) = (tick s).withTransmit a := by
  simp only [tick, compareMatch, withTransmit_ite, ← raiseInterrupt_withTransmit]
  rfl

theorem edge_withTransmit : edge (s.withTransmit a) = (edge s).withTransmit a := by
  simp only [edge, withTransmit_ite, ← raiseInterrupt_withTransmit]
  rfl

theorem serviceEdge_withTransmit :
    serviceEdge (s.withTransmit a) = (serviceEdge s).withTransmit a := by
  simp only [serviceEdge_eq]
  rfl

theorem captureTurn_withTransmit :
    captureTurn (s.withTransmit a) = (captureTurn s).withTransmit a := by
  simp only [captureTurn, withTransmit_ite, ← serviceEdge_withTransmit]
  rfl

theorem cfgWriteTurn_withTransmit (n : Fin 8) (v : Byte) :
    cfgWriteTurn n v (s.withTransmit a) = (cfgWriteTurn n v s).withTransmit a := by
  have hwrite : cfgWrite n v (s.withTransmit a) = (cfgWrite n v s).withTransmit a := by
    simp only [cfgWrite]
    split <;> rfl
  simp only [cfgWriteTurn, withTransmit_ite, hwrite]
  rfl

end

/-- A turn of the receive side does the same whatever the transmit side holds, but for the value a
configuration read returns. -/
theorem sameReceive_takeTurn_both {m : Config.Move} {s t u : State} (hm : isCommandSide m = false)
    (h : SameReceive s u) (ht : takeTurn m s = .next t) :
    ∃ v, takeTurn m u = .next v ∧ SameReceive t v := by
  obtain ⟨a, rfl⟩ := h
  cases m with
  | command => cases hm
  | present w => cases hm
  | withdraw => cases hm
  | capture => cases ht; exact ⟨_, rfl, a, captureTurn_withTransmit s a⟩
  | tick => cases ht; exact ⟨_, rfl, a, tick_withTransmit s a⟩
  | edge => cases ht; exact ⟨_, rfl, a, edge_withTransmit s a⟩
  | cfgWrite n v => cases ht; exact ⟨_, rfl, a, cfgWriteTurn_withTransmit s a n v⟩
  | cfgRead n =>
    cases ht
    refine ⟨_, rfl, cfgReadTurn n (s.withTransmit a), ?_⟩
    rw [cfgReadTurn_frame n s, cfgReadTurn_frame n (s.withTransmit a)]
    rfl

/-- A turn of the transmit side leaves the receive side alone. -/
theorem sameReceive_takeTurn_left {m : Config.Move} {s t u : State} (hm : isCommandSide m = true)
    (h : SameReceive s u) (ht : takeTurn m s = .next t) : SameReceive t u := by
  obtain ⟨a, rfl⟩ := h
  cases m with
  | command => rw [commandTurn_frame ht]; exact ⟨a, rfl⟩
  | present w => cases ht; exact ⟨a, rfl⟩
  | withdraw => cases ht; exact ⟨a, rfl⟩
  | capture => cases hm
  | tick => cases hm
  | edge => cases hm
  | cfgRead n => cases hm
  | cfgWrite n v => cases hm

/-! ### The transmit side's turns do not see the receive side -/

section
variable {s t : State} (b : State)

theorem exec_withReceive {i : Instr} (h : exec i s = .next t) :
    exec i (s.withReceive b) = .next (t.withReceive b) := by
  have hparams : (s.withReceive b).params = s.params := rfl
  cases i with
  | sendA hc ad cm da => cases h; rfl
  | sendB hc ad cm da =>
    cases hbuilt : s.params.formatBEnabled <;>
      simp only [exec, execSendB, hparams, hbuilt] at h ⊢ <;> cases h <;> rfl
  | setGain v => cases h; rfl
  | setDrssi v => cases h; rfl
  | setDebug v =>
    cases hbuilt : s.params.debugBuild <;>
      simp only [exec, execSetDebug, hparams, hbuilt] at h ⊢ <;> cases h <;> rfl

theorem accept_withReceive {w : CommandWord} (h : accept w s = .next t) :
    accept w (s.withReceive b) = .next (t.withReceive b) := by
  have hparams : (s.withReceive b).params = s.params := rfl
  cases hw : decode s.params w <;> simp only [accept, hparams, hw] at h ⊢
  case ok i => exact exec_withReceive b h
  case error e => cases h; rfl

theorem acceptTurn_withReceive (hinit : b.capture.initDone = s.capture.initDone)
    (h : acceptTurn s = .next t) : acceptTurn (s.withReceive b) = .next (t.withReceive b) := by
  have henabled : acceptEnabled (s.withReceive b) = acceptEnabled s := by
    simp only [acceptEnabled, State.withReceive, hinit]
  have hport : (s.withReceive b).port = s.port := rfl
  cases ha : acceptEnabled s <;> cases hw : s.port <;>
    simp only [acceptTurn, henabled, hport, ha, hw] at h ⊢
  case true.some w => exact accept_withReceive (s := s.takeWord) b h
  all_goals cases h; rfl

theorem txOn_withReceive (h : txOn s = .next t) :
    txOn (s.withReceive b) = .next (t.withReceive b) := by
  have hcurrent : (s.withReceive b).currentBit = s.currentBit := rfl
  cases hbit : s.currentBit <;> simp only [txOn, hcurrent, hbit] at h ⊢ <;> cases h
  rfl

theorem afterOffPulse_withReceive (q : Seq) :
    afterOffPulse (s.withReceive b) q = (afterOffPulse s q).withReceive b := by
  simp only [afterOffPulse, show (s.withReceive b).frame = s.frame from rfl]
  split <;> rfl

theorem txOff_withReceive (h : txOff s = .next t) :
    txOff (s.withReceive b) = .next (t.withReceive b) := by
  have hcurrent : (s.withReceive b).currentBit = s.currentBit := rfl
  cases hbit : s.currentBit <;> simp only [txOff, hcurrent, hbit] at h ⊢ <;> cases h
  case some.refl bit =>
    exact congrArg _ (afterOffPulse_withReceive (s := s.rlKey false (offDuration bit)) b _)

theorem txDelay_withReceive : txDelay (s.withReceive b) = (txDelay s).withReceive b := by
  simp only [txDelay, show (s.withReceive b).command = s.command from rfl]
  split <;> rfl

theorem commandTurn_withReceive (hinit : b.capture.initDone = s.capture.initDone)
    (h : commandTurn s = .next t) : commandTurn (s.withReceive b) = .next (t.withReceive b) := by
  have hinit' : (s.withReceive b).capture.initDone = s.capture.initDone := hinit
  have hcommand : (s.withReceive b).command = s.command := rfl
  by_cases hi : s.capture.initDone = true
  · cases hst : s.command.seq.st <;>
      simp only [commandTurn, hinit', hcommand, hi, hst, if_true] at h ⊢
    case idle => exact acceptTurn_withReceive b hinit h
    case txOn => exact txOn_withReceive b h
    case txOff => exact txOff_withReceive b h
    case txDelay => cases h; exact congrArg _ (txDelay_withReceive b)
    all_goals cases h; rfl
  · simp only [commandTurn, hinit', hi] at h ⊢
    cases h; rfl

end

/-- A turn of the transmit side does the same whatever the receive side holds. -/
theorem sameTransmit_takeTurn_both {m : Config.Move} {s t u : State} (hm : isCommandSide m = true)
    (h : SameTransmit s u) (ht : takeTurn m s = .next t) :
    ∃ v, takeTurn m u = .next v ∧ SameTransmit t v := by
  obtain ⟨hs, b, hb, rfl⟩ := h
  cases m with
  | command =>
    have hinit : t.capture.initDone = true := by rw [commandTurn_frame ht]; exact hs
    exact ⟨_, commandTurn_withReceive b (hb.trans hs.symm) ht, hinit, b, hb, rfl⟩
  | present w => cases ht; exact ⟨_, rfl, hs, b, hb, rfl⟩
  | withdraw => cases ht; exact ⟨_, rfl, hs, b, hb, rfl⟩
  | capture => cases hm
  | tick => cases hm
  | edge => cases hm
  | cfgRead n => cases hm
  | cfgWrite n v => cases hm

/-- A turn of the receive side leaves the transmit side alone. -/
theorem sameTransmit_takeTurn_left {m : Config.Move} {s t u : State} (hm : isCommandSide m = false)
    (h : SameTransmit s u) (ht : takeTurn m s = .next t) : SameTransmit t u := by
  obtain ⟨hs, b, hb, rfl⟩ := h
  refine ⟨takeTurn_initDone hs ht, b, hb, ?_⟩
  cases m with
  | command => cases hm
  | present w => cases hm
  | withdraw => cases hm
  | capture => cases ht; rw [captureTurn_frame]; rfl
  | tick => cases ht; rw [tick_frame]; rfl
  | edge => cases ht; rw [edge_frame]; rfl
  | cfgRead n => cases ht; rw [cfgReadTurn_frame]; rfl
  | cfgWrite n v => cases ht; rw [cfgWriteTurn_frame]; rfl

/-! ### Runs -/

/-- A relation that the turns of one side keep when both runs take them, and the turns of the other
side keep when only the first run does, relates a run to the run of the one side's turns. -/
theorem runMoves_filter_of_simulation {R : State → State → Prop} {side : Config.Move → Bool}
    (htake : ∀ m s t u, side m = true → R s u → takeTurn m s = .next t →
      ∃ v, takeTurn m u = .next v ∧ R t v)
    (hskip : ∀ m s t u, side m = false → R s u → takeTurn m s = .next t → R t u)
    {ms : List Config.Move} {s t u : State} (hsu : R s u) (h : runMoves ms s = .next t) :
    ∃ v, runMoves (ms.filter side) u = .next v ∧ R t v := by
  induction ms generalizing s u with
  | nil => cases h; exact ⟨u, rfl, hsu⟩
  | cons m ms ih =>
    obtain ⟨s', hs', hrun⟩ := runMoves_cons_inv h
    cases hm : side m
    · rw [List.filter_cons_of_neg (by simp [hm])]
      exact ih (hskip m s s' u hm hsu hs') hrun
    · obtain ⟨u', hu', hsu'⟩ := htake m s s' u hm hsu hs'
      rw [List.filter_cons_of_pos hm, runMoves_cons_next hu']
      exact ih hsu' hrun

/-- Settles O48: a run and the run of one side's turns stay the same on that side. -/
theorem commandAndCaptureAgentsAreIndependent :
    Obligations.CommandAndCaptureAgentsAreIndependent := by
  intro ms s t h
  constructor
  · intro hinit
    obtain ⟨u, hrun, -, b, -, rfl⟩ := runMoves_filter_of_simulation (R := SameTransmit)
      (fun _ _ _ _ => sameTransmit_takeTurn_both) (fun _ _ _ _ => sameTransmit_takeTurn_left)
      ⟨hinit, s, hinit, rfl⟩ h
    exact ⟨_, hrun, rfl, rfl, rfl, rfl, rfl⟩
  · obtain ⟨u, hrun, a, rfl⟩ := runMoves_filter_of_simulation (R := SameReceive)
      (side := fun m => !isCommandSide m)
      (fun _ _ _ _ hm => sameReceive_takeTurn_both (by simpa using hm))
      (fun _ _ _ _ hm => sameReceive_takeTurn_left (by simpa using hm)) ⟨s, rfl⟩ h
    exact ⟨_, hrun, rfl, rfl, rfl, rfl, rfl⟩

end Sys2Proof.Machine
end

section
/-! Proof of the statement about the init step (70_reset_and_hazards.md rule R272). -/

namespace Sys2Proof.Machine

/-! ### Before the init step -/

section
variable {s : State} (hinit : s.capture.initDone = false)
include hinit

theorem captureTurn_of_not_initDone : captureTurn s = { s with
    capture := { s.capture with initDone := true }, rxTrace := s.rxTrace ++ [.onInit] } := by
  simp [captureTurn, init, State.emitRx, hinit]

theorem commandTurn_of_not_initDone : commandTurn s = .next s := by
  simp [commandTurn, hinit]

theorem cfgReadTurn_of_not_initDone (n : Fin 8) : cfgReadTurn n s = s := by
  simp [cfgReadTurn, hinit]

theorem cfgWriteTurn_of_not_initDone (n : Fin 8) (v : Byte) : cfgWriteTurn n v s = s := by
  simp [cfgWriteTurn, hinit]

end

/-! ### After the init step -/

/-- Past init no service forwards `DEC.onInit()` again (R231, R236). -/
theorem captureTurn_count_onInit {s : State} (hinit : s.capture.initDone = true) :
    (captureTurn s).rxTrace.count .onInit = s.rxTrace.count .onInit := by
  obtain ⟨hno, -⟩ | ⟨-, -, ht⟩ | ⟨-, -, ht⟩ | ⟨-, -, -, ht⟩ | ⟨-, -, -, -, ht⟩ := captureTurn_cases s
  · simp [hinit] at hno
  · simp [ht]
  · simp [ht, serviceEdge_eq]
  · simp [ht, serviceTimeout_eq]
  · simp [ht]

theorem takeTurn_count_onInit {m : Config.Move} {s t : State} (hinit : s.capture.initDone = true)
    (h : takeTurn m s = .next t) : t.rxTrace.count .onInit = s.rxTrace.count .onInit := by
  by_cases hm : m = .capture
  · subst hm
    cases h
    exact captureTurn_count_onInit hinit
  · rw [(takeTurn_keepsPending hm h).rxTrace]

/-- Settles O40: before init the Capture agent's turn is the init step and the gated turns do nothing,
`InitFirst` leaves the trace empty and the edge not enabled; after it no turn undoes or repeats it. -/
theorem initStepComesFirst : Obligations.InitStepComesFirst := by
  intro s
  refine ⟨fun hinit => ?_, fun hinit hfirst => ?_, fun m t hinit h => ?_⟩
  · exact ⟨congrArg _ (captureTurn_of_not_initDone hinit), commandTurn_of_not_initDone hinit,
      fun n => congrArg _ (cfgReadTurn_of_not_initDone hinit n),
      fun n v => congrArg _ (cfgWriteTurn_of_not_initDone hinit n v)⟩
  · obtain ⟨hbefore, -⟩ := hfirst
    obtain ⟨hrx, -, -, -, -, hie, -⟩ := hbefore hinit
    refine ⟨fun t ht => ?_, congrArg _ (edge_of_no_new_edge (.inl hie))⟩
    cases ht
    rw [captureTurn_of_not_initDone hinit, hrx]
    rfl
  · exact ⟨takeTurn_initDone hinit h, takeTurn_count_onInit hinit h⟩

end Sys2Proof.Machine
end

section
/-! Proofs of the statements about the encoding (30_encoding.md sections 1 and 5): the two round trips,
which words are invalid, and what a command of the build answers. -/

namespace Sys2Proof

/-! ### The two round trips -/

/-- Settles O1: the fields of the encoded word are the operands, and the build has the command. -/
theorem decodeOfEncodeIsTheInstruction : Obligations.DecodeOfEncodeIsTheInstruction := by
  intro p i hwf
  cases i with
  | sendA hc ad cm da => simp [encode, decode_of_opSendA]
  | sendB hc ad cm da =>
    have hbuilt : p.formatBEnabled = true := hwf
    simp [encode, decode_of_opSendB, hbuilt]
  | setGain v => simp [encode, decode_of_opSetGain]
  | setDrssi v => simp [encode, decode_of_opSetDrssi]
  | setDebug v =>
    have hbuilt : p.debugBuild = true := hwf
    simp [encode, decode_of_opSetDebug, hbuilt]

section
variable {w : CommandWord} {op : Byte}

theorem formatS_of_opField (h : opField w = op) :
    formatS op (hcField w) (addrField w) (cmdField w) (lowField w) = w :=
  h ▸ formatS_of_fields w

theorem formatV_of_opField (h : opField w = op) (hz : zeroField w = 0) :
    formatV op (lowField w) = w :=
  h ▸ formatV_of_fields w hz

end

/-- Settles O2: each branch of `decode` that answers a command has tested the opcode, the reserved bits
and the build, and the word is its fields. -/
theorem encodeOfDecodeIsTheWord : Obligations.EncodeOfDecodeIsTheWord := by
  intro p w i h
  unfold decode at h
  split at h
  case isTrue hop => cases h; exact ⟨formatS_of_opField hop, rfl⟩
  split at h
  case isTrue hop =>
    split at h <;> cases h
    next hbuilt => exact ⟨formatS_of_opField hop, hbuilt⟩
  split at h
  case isFalse => cases h
  case isTrue hV =>
    split at h
    case isTrue => cases h
    case isFalse hz =>
      have hzero : zeroField w = 0 := not_not.mp hz
      split at h
      case isTrue hop => cases h; exact ⟨formatV_of_opField hop hzero, rfl⟩
      case isFalse hgain =>
        split at h
        case isTrue hop => cases h; exact ⟨formatV_of_opField hop hzero, rfl⟩
        case isFalse hdrssi =>
          split at h <;> cases h
          next hbuilt =>
            exact ⟨formatV_of_opField ((hV.resolve_left hgain).resolve_left hdrssi) hzero, hbuilt⟩

/-- Settles O4: five words, decoded by evaluation. -/
theorem handWrittenWordsDecode : Obligations.HandWrittenWordsDecode := by
  unfold Obligations.HandWrittenWordsDecode
  decide

/-! ### Which words are invalid (R116, R117, R118) -/

/-- The word has a reserved opcode, a command that is not built, or a reserved bit set. -/
def IllegalWord (p : Config.Params) (w : CommandWord) : Prop :=
  opField w = 0 ∨ 6 ≤ (opField w).toNat
    ∨ (opField w = 2 ∧ p.formatBEnabled = false)
    ∨ (opField w = 5 ∧ p.debugBuild = false)
    ∨ (3 ≤ (opField w).toNat ∧ (opField w).toNat ≤ 5 ∧ zeroField w ≠ 0)

section
variable {p : Config.Params} {w : CommandWord}

theorem decode_of_illegalWord (h : IllegalWord p w) : ∃ e, decode p w = .error e := by
  obtain h | h | ⟨hop, hbuilt⟩ | ⟨hop, hbuilt⟩ | ⟨h3, h5, hz⟩ := h
  · exact ⟨_, decode_of_reservedOpcode (.inl (by rw [h]; rfl))⟩
  · exact ⟨_, decode_of_reservedOpcode (.inr h)⟩
  · exact ⟨_, (decode_of_opSendB hop).trans (if_neg (by simp [hbuilt]))⟩
  · rw [decode_of_opSetDebug hop]
    split
    · exact ⟨_, rfl⟩
    · exact ⟨_, if_neg (by simp [hbuilt])⟩
  · exact ⟨_, decode_of_reservedBits h3 h5 hz⟩

/-- Every word that is not illegal is a command of the build. -/
theorem decode_of_not_illegalWord (h : ¬IllegalWord p w) : ∃ i, decode p w = .ok i := by
  simp only [IllegalWord, not_or, not_and, Bool.not_eq_false, not_not] at h
  obtain ⟨h0, h6, hB, hD, hzero⟩ := h
  have hpos : (opField w).toNat ≠ 0 := fun hop => h0 (BitVec.eq_of_toNat_eq hop)
  have hop {op : Byte} (hnat : (opField w).toNat = op.toNat) : opField w = op :=
    BitVec.eq_of_toNat_eq hnat
  obtain h | h | h | h | h : (opField w).toNat = 1 ∨ (opField w).toNat = 2 ∨ (opField w).toNat = 3
      ∨ (opField w).toNat = 4 ∨ (opField w).toNat = 5 := by omega
  · exact ⟨_, decode_of_opSendA (hop h)⟩
  · exact ⟨_, (decode_of_opSendB (hop h)).trans (if_pos (hB (hop h)))⟩
  · exact ⟨_, (decode_of_opSetGain (hop h)).trans (if_neg (by simp [hzero, h]))⟩
  · exact ⟨_, (decode_of_opSetDrssi (hop h)).trans (if_neg (by simp [hzero, h]))⟩
  · rw [decode_of_opSetDebug (hop h), if_neg (by simp [hzero, h]), if_pos (hD (hop h))]
    exact ⟨_, rfl⟩

end

end Sys2Proof

namespace Sys2Proof.Machine

/-! ### The instructions at their accept step (41_transmit_scheduler.md R161) -/

/-- Settles O20: the accept step of `SEND_A` begins a send. -/
theorem sendABeginsASend : Obligations.SendABeginsASend := fun _ _ _ _ _ => rfl

/-- Settles O22: the accept step of each tuning command begins a tuning step. -/
theorem tuningCommandsBeginATuneStep : Obligations.TuningCommandsBeginATuneStep :=
  fun _ _ => ⟨rfl, rfl⟩

section
variable {s : State}

theorem exec_sendB_of_built (h : s.params.formatBEnabled = true) (hc : HouseCode)
    (ad cm da : Byte) :
    exec (.sendB hc ad cm da) s = .next (s.startSend .formatB hc ad cm da) := if_pos h

theorem exec_sendB_of_not_built (h : s.params.formatBEnabled = false) (hc : HouseCode)
    (ad cm da : Byte) : exec (.sendB hc ad cm da) s = raiseParseError s := if_neg (by simp [h])

theorem exec_setDebug_of_built (h : s.params.debugBuild = true) (v : Byte) :
    exec (.setDebug v) s = .next ((s.setDebug v).emitResult .ok) := if_pos h

theorem exec_setDebug_of_not_built (h : s.params.debugBuild = false) (v : Byte) :
    exec (.setDebug v) s = raiseParseError s := if_neg (by simp [h])

end

/-- Settles O21: the build decides between beginning a send and `ParseError`. -/
theorem sendBBeginsASendWhenBuilt : Obligations.SendBBeginsASendWhenBuilt := fun _ hc ad cm da =>
  ⟨fun h => exec_sendB_of_built h hc ad cm da, fun h => exec_sendB_of_not_built h hc ad cm da⟩

/-- Settles O23: the build decides between storing the flag and `ParseError`, and what register 4
shows. -/
theorem setDebugStoresTheFlagWhenBuilt : Obligations.SetDebugStoresTheFlagWhenBuilt := by
  refine fun s v => ⟨fun h => ⟨_, exec_setDebug_of_built h v, rfl, ?_⟩, fun h =>
    ⟨exec_setDebug_of_not_built h v, if_neg (by simp [h])⟩⟩
  exact debugView_eq_debug (s := (s.setDebug v).emitResult .ok) (.inl h)

/-- A command of the build answers `OK` at its accept step if it is `SET_DEBUG`, nothing otherwise. -/
theorem exec_results_of_wellFormed {i : Instr} {s t : State} (hwf : i.wellFormed s.params = true)
    (h : exec i s = .next t) :
    t.results = if ∃ v, i = .setDebug v then s.results ++ [.ok] else s.results := by
  cases i with
  | sendA hc ad cm da => cases h; simp
  | sendB hc ad cm da => rw [exec_sendB_of_built hwf] at h; cases h; simp
  | setGain v => cases h; simp
  | setDrssi v => cases h; simp
  | setDebug v => rw [exec_setDebug_of_built hwf] at h; cases h; simp

/-- A command's accept step writes the Command agent's registers and the results, and nothing else. -/
theorem exec_frame {i : Instr} {s t : State} (h : exec i s = .next t) :
    t = { s with command := t.command, results := t.results } := by
  obtain ⟨v, hc, ad, cm, da, rfl⟩ | ⟨k, v, -, rfl⟩ | ⟨v, -, rfl⟩ | rfl := exec_inv h <;> rfl

/-- Which of the Command agent's registers each command's accept step leaves unchanged. -/
theorem exec_command_frame {i : Instr} {s t : State} (h : exec i s = .next t) :
    ((∀ v, i ≠ .setDebug v) → t.command.debug = s.command.debug)
    ∧ ((∀ hc a c d, i ≠ .sendA hc a c d) → (∀ hc a c d, i ≠ .sendB hc a c d) →
        t.command.var = s.command.var ∧ t.command.hc = s.command.hc
        ∧ t.command.addr = s.command.addr ∧ t.command.cmd = s.command.cmd
        ∧ t.command.data = s.command.data)
    ∧ ((∀ v, i ≠ .setGain v) → (∀ v, i ≠ .setDrssi v) → t.command.val = s.command.val)
    ∧ ((∃ v, i = .setDebug v) →
        t.command.kind = s.command.kind ∧ t.command.busy = s.command.busy
        ∧ t.command.seq = s.command.seq) := by
  cases i with
  | sendA hc ad cm da => cases h; simp
  | sendB hc ad cm da =>
    cases hbuilt : s.params.formatBEnabled
    · rw [exec_sendB_of_not_built hbuilt] at h; cases h; simp
    · rw [exec_sendB_of_built hbuilt] at h; cases h; simp
  | setGain v => cases h; simp
  | setDrssi v => cases h; simp
  | setDebug v =>
    cases hbuilt : s.params.debugBuild
    · rw [exec_setDebug_of_not_built hbuilt] at h; cases h; simp
    · rw [exec_setDebug_of_built hbuilt] at h; cases h; simp

/-- Settles O24: the frame of an accept step, and the registers that each command leaves unchanged. -/
theorem commandsLeaveEverythingElse : Obligations.CommandsLeaveEverythingElse := by
  intro i s t h
  obtain ⟨hdebug, hlatches, hval, hseq⟩ := exec_command_frame h
  have hresults (hne : ∀ v, i ≠ .setDebug v) (hwf : i.wellFormed s.params = true) :
      t.results = s.results :=
    (exec_results_of_wellFormed hwf h).trans (if_neg (by simpa using hne))
  obtain ⟨command, results, rfl⟩ : ∃ c r, t = { s with command := c, results := r } :=
    ⟨_, _, exec_frame h⟩
  exact ⟨rfl, rfl, rfl, rfl, rfl, rfl, rfl, rfl, rfl, rfl, rfl, rfl, hdebug, hlatches, hval, hseq,
    hresults⟩

/-! ### The accept step in a turn and in a step -/

theorem accept_of_decode {w : CommandWord} {s : State} {i : Instr}
    (h : decode s.params w = .ok i) : accept w s = exec i s := by
  simp [accept, h]

theorem acceptEnabled_iff (s : State) : acceptEnabled s = true ↔
    s.capture.initDone = true ∧ s.command.busy = false ∧ s.command.seq.st = .idle := by
  simp [acceptEnabled, and_assoc]

/-- The Command agent's turn with the accept step enabled and a word presented (R161). -/
theorem commandTurn_of_acceptEnabled {s : State} {w : CommandWord} (h : acceptEnabled s = true)
    (hw : s.port = some w) : commandTurn s = accept w s.takeWord := by
  obtain ⟨hinit, -, hst⟩ := (acceptEnabled_iff s).mp h
  simp [commandTurn, acceptTurn, h, hw, hinit, hst]

/-- The idle Command agent does nothing where the accept step is not enabled or has no word. -/
theorem commandTurn_of_not_accepting {s : State} (hst : s.command.seq.st = .idle)
    (h : s.capture.initDone = false ∨ s.command.busy = true ∨ s.port = none) :
    commandTurn s = .next s := by
  obtain hinit | hbusy | hport := h
  · exact commandTurn_of_not_initDone hinit
  · simp [commandTurn, acceptTurn, acceptEnabled, hst, hbusy]
  · simp [commandTurn, acceptTurn, hst, hport]

/-- A step that accepts a word, its turn and the word taken off (logs 1 and 7). -/
theorem step_of_accept {s : State} {w : CommandWord} (hmove : nextMove s = .command)
    (h : acceptEnabled s = true) (hw : s.port = some w) :
    step s = accept w { s.dropMove with port := none } := by
  rw [step, hmove, takeTurn_command]
  exact commandTurn_of_acceptEnabled (by simpa [acceptEnabled] using h) (by simpa using hw)

/-- Settles O25: the accept step of a word that decodes is the command. -/
theorem stepRunsTheDecodedInstruction : Obligations.StepRunsTheDecodedInstruction := by
  intro s w i hmove h hw hi
  rw [step_of_accept hmove h hw]
  exact accept_of_decode (by simpa using hi)

/-- Settles O5: an illegal word decodes to an error, every other word to a command of the build, whose
accept step answers nothing or `OK`. -/
theorem illegalWordsAreExactlyTheParseErrors : Obligations.IllegalWordsAreExactlyTheParseErrors := by
  intro s w h hw hmove
  refine ⟨fun hill => ?_, fun hlegal => ?_⟩
  · obtain ⟨e, he⟩ := decode_of_illegalWord hill
    rw [step_of_accept hmove h hw, accept_of_decode_error (e := e) (by simpa using he)]
    simp [raiseParseError, State.emitResult]
  · obtain ⟨i, hi⟩ := decode_of_not_illegalWord hlegal
    obtain ⟨hword, hwf⟩ := encodeOfDecodeIsTheWord _ _ _ hi
    have hstep := stepRunsTheDecodedInstruction s w i hmove h hw hi
    obtain ⟨t, ht⟩ := exec_total i { s.dropMove with port := none }
    have hresults := exec_results_of_wellFormed (by simpa using hwf) ht
    refine ⟨i, t, hi, hword, hstep, hstep.trans ht, ?_⟩
    split at hresults
    · exact .inr (by simpa using hresults)
    · exact .inl (by simpa using hresults)

/-- Settles O19: the turn is the accept step of the word, which is its command's or `ParseError`. -/
theorem acceptStepLatchesTheCommand : Obligations.AcceptStepLatchesTheCommand := by
  intro s hst
  refine ⟨commandTurn_of_not_accepting hst, fun w hinit hbusy hw => ?_⟩
  rw [commandTurn_of_acceptEnabled ((acceptEnabled_iff s).mpr ⟨hinit, hbusy, hst⟩) hw]
  have haccept {i : Instr} (hi : decode s.params w = .ok i) : accept w s.takeWord = exec i s.takeWord :=
    accept_of_decode hi
  have hbuilt {i : Instr} (hi : decode s.params w = .ok i) : i.wellFormed s.params = true :=
    (encodeOfDecodeIsTheWord _ _ _ hi).2
  refine ⟨fun e he => accept_of_decode_error (s := s.takeWord) he, fun hc ad cm da hi => haccept hi,
    fun hc ad cm da hi => ?_, fun g hi => haccept hi, fun d hi => haccept hi, fun f hi => ?_⟩
  · exact (haccept hi).trans (exec_sendB_of_built (s := s.takeWord) (hbuilt hi) hc ad cm da)
  · exact (haccept hi).trans (exec_setDebug_of_built (s := s.takeWord) (hbuilt hi) f)

end Sys2Proof.Machine
end

section
/-! Proofs of the statements about text lines (30_encoding.md section 4): how a token is read, which
lines assemble, and that any other line reaches the block as nothing. -/

namespace Sys2Proof.Machine

/-! ### Tokens (R111) -/

theorem radix_eq_ite (name : TextName) :
    name.radix = if name = .setGain ∨ name = .setDrssi then 10 else 16 := by
  cases name <;> rfl

/-- A token is malformed exactly when it has no digit or one outside the radix. -/
theorem readDigits_eq_none_iff (radix : Nat) (ds : List Nat) :
    readDigits radix ds = none ↔ ds = [] ∨ ∃ d ∈ ds, radix ≤ d := by
  simp [readDigits, or_iff_not_imp_left]

/-- A token that is not malformed is worth the number its digits write. -/
theorem readDigits_of_wellFormed {radix : Nat} {ds : List Nat} (hne : ds ≠ [])
    (hds : ∀ d ∈ ds, d < radix) :
    readDigits radix ds = some (ds.foldl (fun n d => n * radix + d) 0) := by
  simpa [readDigits, hne] using hds

/-- A digit put after a token multiplies it by the radix and is added. -/
theorem readDigits_append_singleton {radix d : Nat} {ds : List Nat} (hd : d < radix) (hne : ds ≠ []) :
    readDigits radix (ds ++ [d]) = (readDigits radix ds).map (fun n => n * radix + d) := by
  by_cases hds : ∀ e ∈ ds, e < radix
  · have happend : ∀ e ∈ ds ++ [d], e < radix := List.forall_mem_append.mpr ⟨hds, by simpa using hd⟩
    rw [readDigits_of_wellFormed hne hds, readDigits_of_wellFormed (by simp) happend,
      List.foldl_append]
    rfl
  · push Not at hds
    obtain ⟨e, he, hle⟩ := hds
    rw [(readDigits_eq_none_iff radix ds).mpr (.inr ⟨e, he, hle⟩),
      (readDigits_eq_none_iff radix _).mpr (.inr ⟨e, List.mem_append_left _ he, hle⟩)]
    rfl

/-- The digits of a number, most significant first, read back as it. -/
theorem readDigits_reverse_digits {radix n : Nat} (hradix : 2 ≤ radix) (hn : 0 < n) :
    readDigits radix (Nat.digits radix n).reverse = some n := by
  have hfoldr : (Nat.digits radix n).foldr (fun d m => m * radix + d) 0 = n := by
    simpa [Nat.ofDigits_eq_foldr, Nat.mul_comm, Nat.add_comm] using Nat.ofDigits_digits radix n
  have hne : (Nat.digits radix n).reverse ≠ [] :=
    List.reverse_ne_nil_iff.mpr (Nat.digits_ne_nil_iff_ne_zero.mpr hn.ne')
  rw [readDigits_of_wellFormed hne
    (fun d hd => Nat.digits_lt_base hradix (List.mem_reverse.mp hd)), List.foldl_reverse, hfoldr]

/-! ### Lines (R110 to R113) -/

@[simp] theorem byteArg_toNat (b : Byte) : byteArg b.toNat = some b := by
  simp [byteArg, b.isLt]

@[simp] theorem houseArg_toNat (h : HouseCode) : houseArg h.toNat = some h := by
  simp [houseArg, h.isLt]

theorem byteArg_eq_some_iff {n : Nat} {b : Byte} :
    byteArg n = some b ↔ n < 256 ∧ BitVec.ofNat 8 n = b := by
  simp [byteArg]

theorem houseArg_eq_some_iff {n : Nat} {h : HouseCode} :
    houseArg n = some h ↔ n < 65536 ∧ BitVec.ofNat 16 n = h := by
  simp [houseArg]

/-- Settles O6: every operand fits its width, and its word is the command's format. -/
theorem textLinesAssembleToTheirCommands : Obligations.TextLinesAssembleToTheirCommands := by
  intro h a c d
  simp [assemble, assembleSend, assembleSet, encode]

/-- A send line that assembles has three or four well-formed tokens, each in its range. -/
theorem assembleSend_eq_some {op : Byte} {args : List (Option Nat)} {w : CommandWord}
    (h : assembleSend op args = some w) :
    (args.length = 3 ∨ args.length = 4) ∧ none ∉ args
      ∧ (∀ n, args.head? = some (some n) → n < 65536) ∧ ∀ n, some n ∈ args.tail → n < 256 := by
  unfold assembleSend at h
  split at h
  · simp [byteArg_eq_some_iff, houseArg_eq_some_iff, Option.bind_eq_some_iff] at h
    obtain ⟨hh, ha, hc, -⟩ := h
    simp [hh, ha, hc]
  · simp [byteArg_eq_some_iff, houseArg_eq_some_iff, Option.bind_eq_some_iff] at h
    obtain ⟨hh, ha, hc, hd, -⟩ := h
    simp [hh, ha, hc, hd]
  · cases h

/-- A set line that assembles has one well-formed token that fits a byte. -/
theorem assembleSet_eq_some {op : Byte} {args : List (Option Nat)} {w : CommandWord}
    (h : assembleSet op args = some w) : ∃ n, n < 256 ∧ args = [some n] := by
  unfold assembleSet at h
  split at h
  · next n =>
    obtain ⟨v, hv, -⟩ := Option.bind_eq_some_iff.mp h
    exact ⟨n, (byteArg_eq_some_iff.mp hv).1, rfl⟩
  · cases h

/-- A line that assembles has a command's name, that command's number of well-formed tokens, and each
token in its range (R113). -/
theorem assemble_eq_some {l : TextLine} {w : CommandWord} (h : assemble l = some w) :
    none ∉ l.args ∧ l.name ≠ .unknown
      ∧ ((l.name = .sendA ∨ l.name = .sendB) → l.args.length = 3 ∨ l.args.length = 4)
      ∧ ((l.name = .setGain ∨ l.name = .setDrssi ∨ l.name = .setDebug) → l.args.length = 1)
      ∧ (∀ n, l.args.head? = some (some n) → n < 65536)
      ∧ ((l.name = .setGain ∨ l.name = .setDrssi ∨ l.name = .setDebug) →
          ∀ n, l.args.head? = some (some n) → n < 256)
      ∧ ∀ n, some n ∈ l.args.tail → n < 256 := by
  obtain ⟨name, args⟩ := l
  cases name <;> simp only [assemble] at h
  case unknown => cases h
  case sendA | sendB =>
    obtain ⟨hlen, hnone, hhead, htail⟩ := assembleSend_eq_some h
    exact ⟨hnone, by simp, fun _ => hlen, by simp, hhead, by simp, htail⟩
  case setGain | setDrssi | setDebug =>
    obtain ⟨v, hv, rfl⟩ := assembleSet_eq_some h
    simp
    omega

/-- Settles O8: a line that assembled would meet none of the seven causes. -/
theorem malformedTextLinesReachNothing : Obligations.MalformedTextLinesReachNothing := by
  intro l s hcause
  cases hword : assemble l with
  | none => simp [submitLine, hword]
  | some w =>
    obtain ⟨hnone, hname, hsend, hset, hhouse, hvalue, htail⟩ := assemble_eq_some hword
    obtain h | h | ⟨h, h3, h4⟩ | ⟨h, h1⟩ | ⟨n, h, hn⟩ | ⟨h, n, hhead, hn⟩ | ⟨n, h, hn⟩ := hcause
    · exact absurd h hnone
    · exact absurd h hname
    · exact absurd (hsend h) (not_or_intro h3 h4)
    · exact absurd (hset h) h1
    · exact absurd (hhouse n h) hn.not_gt
    · exact absurd (hvalue h n hhead) hn.not_gt
    · exact absurd (htail n h) hn.not_gt

/-- Settles O7: reading a token is Horner's rule on its digits, the radix is the command's, and a line
with a malformed token does not parse. -/
theorem tokensReadInTheRadixOfTheCommand : Obligations.TokensReadInTheRadixOfTheCommand := by
  simp only [Obligations.TokensReadInTheRadixOfTheCommand, ← radix_eq_ite]
  refine ⟨fun _ _ => rfl, fun radix d hd => ?_, fun _ _ => readDigits_reverse_digits,
    fun _ _ _ => readDigits_append_singleton, readDigits_eq_none_iff, ?_⟩
  · rw [readDigits_of_wellFormed (by simp) (by simpa using hd)]
    simp
  · rintro name tokens s ⟨ds, hds, hdigit⟩
    have hnone : none ∈ (readLine name tokens).args :=
      List.mem_map.mpr ⟨ds, hds, (readDigits_eq_none_iff _ ds).mpr (.inr hdigit)⟩
    exact malformedTextLinesReachNothing _ s (.inl hnone)

end Sys2Proof.Machine
end

section
/-! Proofs of the statements about the Frame Encoder and the trace of a send (30_encoding.md section 3,
40_frame_encoder.md sections 4 and 5, 41_transmit_scheduler.md section 4). -/

namespace Sys2Proof.Machine

/-! ### The frame -/

/-- In pieces of `c` elements each, the element `j` of the piece `k` stands at index `c * k + j`. -/
theorem getElem?_flatMap_of_length {α β : Type} {f : α → List β} {c j : Nat}
    (hlen : ∀ x, (f x).length = c) (hj : j < c) (l : List α) (k : Nat) :
    (l.flatMap f)[c * k + j]? = l[k]?.bind fun x => (f x)[j]? := by
  induction l generalizing k with
  | nil => simp
  | cons x l ih =>
    rw [List.flatMap_cons]
    cases k with
    | zero => rw [List.getElem?_append_left (by simpa [hlen] using hj)]; simp
    | succ k =>
      have hidx : c * (k + 1) + j - (f x).length = c * k + j := by rw [hlen, Nat.mul_succ]; omega
      rw [List.getElem?_append_right (by rw [hlen, Nat.mul_succ]; omega), hidx, ih]
      simp

section
variable (v : Variant) (hc : HouseCode) (addr cmd data : Byte)

theorem length_fieldBytes :
    (fieldBytes v hc addr cmd data).length = if hasData cmd then 6 else 5 := by
  rw [fieldBytes_eq_operandBytes_append, List.length_append, length_operandBytes]
  split <;> rfl

theorem length_frameBits :
    (frameBits v hc addr cmd data).length = 13 + 9 * (fieldBytes v hc addr cmd data).length + 1 := by
  rw [length_frameBits_eq_frameHead_add, length_frameHead, fieldBytes_eq_operandBytes_append,
    List.length_append]
  simp
  omega

/-- The bits after the sync pattern: the byte fields, then the stop bit. -/
theorem getElem?_frameBits_add (i : Nat) : (frameBits v hc addr cmd data)[13 + i]?
    = ((fieldBytes v hc addr cmd data).flatMap field9 ++ stopBits)[i]? := by
  rw [frameBits, List.append_assoc, List.getElem?_append_right (by simp [syncBits, msbFirst])]
  simp [syncBits, msbFirst]

/-- Bit `j` of the field of byte `k`. -/
theorem getElem?_frameBits_field {k j : Nat} {b : Byte}
    (hb : (fieldBytes v hc addr cmd data)[k]? = some b) (hj : j < 9) :
    (frameBits v hc addr cmd data)[13 + 9 * k + j]? = (field9 b)[j]? := by
  obtain ⟨hk, -⟩ := List.getElem?_eq_some_iff.mp hb
  rw [Nat.add_assoc, getElem?_frameBits_add, List.getElem?_append_left,
    getElem?_flatMap_of_length length_field9 hj, hb]
  · rfl
  · simp [List.length_flatMap]
    omega

end

theorem length_flatMap_field9 (bs : List Byte) : (bs.flatMap field9).length = 9 * bs.length := by
  simp [List.length_flatMap, Nat.mul_comm]

/-- The bits of a byte field before its parity bit, most significant first (R102). -/
theorem getElem?_field9_of_lt {b : Byte} {j : Nat} (hj : j < 8) :
    (field9 b)[j]? = some (b.getLsbD (7 - j)) := by
  rw [field9, List.getElem?_append_left (by simpa [msbFirst] using hj)]
  simp [msbFirst, hj]

/-- Settles O14: the sync pattern, the nine bits of each byte's field, the stop bit. -/
theorem frameBitAtEachIndex : Obligations.FrameBitAtEachIndex := by
  intro v hc addr cmd data bs f
  have hsync {i : Nat} (hi : i < 13) : f[i]? = syncBits[i]? := by
    simp only [f, frameBits, List.append_assoc]
    exact List.getElem?_append_left (by simpa [syncBits, msbFirst] using hi)
  refine ⟨length_fieldBytes v hc addr cmd data, length_frameBits v hc addr cmd data, fun i hi => ?_,
    hsync (by decide), fun k j b hb hj => ?_, fun k b hb => ?_, ?_⟩
  · rw [hsync (by omega), syncBits_eq_zeros_append_one, List.getElem?_append_left (by simpa using hi),
      List.getElem?_replicate_of_lt hi]
  · rw [getElem?_frameBits_field v hc addr cmd data hb (by omega), getElem?_field9_of_lt hj]
  · exact getElem?_frameBits_field v hc addr cmd data hb (by decide)
  · rw [getElem?_frameBits_add, ← length_flatMap_field9, List.getElem?_append_right le_rfl]
    simp [stopBits]

/-- Settles O10: absent data is in none of the frame's bytes. -/
theorem absentDataHasNoEffect : Obligations.AbsentDataHasNoEffect := by
  intro v hc addr cmd data data' h
  have hsum : checksum v hc addr cmd data = checksum v hc addr cmd data' := by simp [checksum, h]
  have hframe : frameBits v hc addr cmd data = frameBits v hc addr cmd data' := by
    simp [frameBits, fieldBytes, hsum, h]
  exact ⟨hsum, hframe, by simp only [sendTrace, repetition, encodeAndTransmit, hframe]⟩

/-! ### The pulse train -/

theorem pulseTrain_append (a b : List Bit) : pulseTrain (a ++ b) = pulseTrain a ++ pulseTrain b :=
  List.flatMap_append

theorem length_pulseTrain (bits : List Bit) : (pulseTrain bits).length = 2 * bits.length := by
  simp [pulseTrain, emitBit, List.length_flatMap, Nat.mul_comm]

/-- The two operations of bit `k` stand at the indices `2 * k` and `2 * k + 1` of the train. -/
theorem getElem?_pulseTrain {bits : List Bit} {k j : Nat} {b : Bit} (hb : bits[k]? = some b)
    (hj : j < 2) : (pulseTrain bits)[2 * k + j]? = (emitBit b)[j]? := by
  rw [pulseTrain, getElem?_flatMap_of_length (f := emitBit) (fun _ => rfl) hj, hb]
  rfl

/-- The operation at each index of a pulse train: the level alternates from 1, the duration is one of
the four (R138, R140). -/
theorem getElem?_pulseTrain_eq_rlKey {bits : List Bit} {i : Nat} (hi : i < (pulseTrain bits).length) :
    ∃ us, (pulseTrain bits)[i]? = some (.rlKey (i % 2 == 0) us)
      ∧ (us = 750 ∨ us = 400 ∨ us = 550 ∨ us = 200) := by
  rw [length_pulseTrain] at hi
  have hbit : bits[i / 2]? = some bits[i / 2] := List.getElem?_eq_getElem (by omega)
  have hop := getElem?_pulseTrain hbit (Nat.mod_lt i two_pos)
  rw [Nat.div_add_mod] at hop
  rw [hop, emitBit, onDuration_eq, offDuration_eq]
  obtain h | h := Nat.mod_two_eq_zero_or_one i
  · cases bits[i / 2] <;> simp [h]
  · cases bits[i / 2] <;> simp [h]

/-- Settles O16: two operations a bit, the last two those of the stop bit. -/
theorem pulseTrainAlternates : Obligations.PulseTrainAlternates := by
  intro v hc addr cmd data ops
  refine ⟨?_, fun i hi => getElem?_pulseTrain_eq_rlKey hi, ?_⟩
  · simp only [ops, encodeAndTransmit, length_pulseTrain, length_frameBits, length_fieldBytes]
    split <;> rfl
  · simp only [ops, encodeAndTransmit, frameBits, pulseTrain_append]
    rw [show pulseTrain stopBits = [.rlKey true 550, .rlKey false 200] by decide]
    simp

/-! ### Durations -/

theorem traceDuration_append (a b : List TxOp) :
    traceDuration (a ++ b) = traceDuration a + traceDuration b := by
  simp [traceDuration]

/-- A one takes 1150 us, a zero 750 us (R142). -/
theorem traceDuration_pulseTrain (bits : List Bit) :
    traceDuration (pulseTrain bits) = 1150 * bits.count true + 750 * bits.count false := by
  induction bits with
  | nil => rfl
  | cons b bits ih =>
    rw [pulseTrain, List.flatMap_cons, traceDuration_append, ← pulseTrain, ih]
    cases b
    · rw [show traceDuration (emitBit false) = 750 by decide]; simp; omega
    · rw [show traceDuration (emitBit true) = 1150 by decide]; simp; omega

section
variable (v : Variant) (hc : HouseCode) (addr cmd data : Byte)

/-- A send is three repetitions and the reactivation (R160). -/
theorem sendTrace_eq : sendTrace v hc addr cmd data
    = repetition v hc addr cmd data ++ (repetition v hc addr cmd data
      ++ (repetition v hc addr cmd data ++ [.rlReactivate])) := by
  simp [sendTrace, repetitions]

theorem traceDuration_repetition : traceDuration (repetition v hc addr cmd data)
    = traceDuration (encodeAndTransmit v hc addr cmd data) + 10000 := by
  simp [repetition, traceDuration, TxOp.duration, repeatDelayUs]

end

/-- Settles O17: the durations of the bits, and of the three repetitions with their waits. -/
theorem sendDurationCountsOnesAndZeros : Obligations.SendDurationCountsOnesAndZeros := by
  intro v hc addr cmd data f
  have hframe : traceDuration (encodeAndTransmit v hc addr cmd data)
      = 1150 * f.count true + 750 * f.count false := traceDuration_pulseTrain f
  refine ⟨hframe, ?_⟩
  simp only [sendTrace_eq, traceDuration_append, traceDuration_repetition, hframe]
  rw [show traceDuration [.rlReactivate] = 0 by decide]
  omega

/-! ### What a send's trace consists of -/

/-- A pulse train consists of `RL.key`. -/
theorem isKey_of_mem_pulseTrain {bits : List Bit} {op : TxOp} (h : op ∈ pulseTrain bits) :
    op.isKey = true := by
  obtain ⟨b, -, hop⟩ := List.mem_flatMap.mp h
  obtain rfl | rfl : op = .rlKey true (onDuration b) ∨ op = .rlKey false (offDuration b) := by
    simpa [emitBit] using hop
  all_goals rfl

/-- Any other operation does not occur in a pulse train. -/
theorem count_pulseTrain_of_not_isKey {op : TxOp} (h : op.isKey = false) (bits : List Bit) :
    (pulseTrain bits).count op = 0 :=
  List.count_eq_zero.mpr fun hop => by simp [isKey_of_mem_pulseTrain hop] at h

theorem countP_isKey_pulseTrain (bits : List Bit) :
    (pulseTrain bits).countP TxOp.isKey = 2 * bits.length := by
  rw [← length_pulseTrain, List.countP_eq_length]
  exact fun op => isKey_of_mem_pulseTrain

/-- Reading a trace in two parts. -/
theorem traceOpen_append (o : Bool) (a b : List TxOp) :
    traceOpen o (a ++ b) = (traceOpen o a).bind (traceOpen · b) := by
  induction a generalizing o with
  | nil => rfl
  | cons op a ih => cases o <;> cases op <;> simp [traceOpen, ih]

/-- A pulse train is keyed inside a transaction, which stays open. -/
theorem traceOpen_pulseTrain (bits : List Bit) : traceOpen true (pulseTrain bits) = some true := by
  induction bits with
  | nil => rfl
  | cons b bits ih => exact ih

section
variable (v : Variant) (hc : HouseCode) (addr cmd data : Byte)

/-- How often an operation that is no `RL.key` occurs in a send's trace. -/
theorem count_sendTrace_of_not_isKey {op : TxOp} (h : op.isKey = false) :
    (sendTrace v hc addr cmd data).count op
      = 3 * [TxOp.rlBegin, .rlEnd, .delayUs 10000].count op + [TxOp.rlReactivate].count op := by
  simp only [sendTrace_eq, repetition, encodeAndTransmit, repeatDelayUs, List.count_append,
    count_pulseTrain_of_not_isKey h, List.count_cons, List.count_nil]
  omega

theorem traceOpen_repetition : traceOpen false (repetition v hc addr cmd data) = some false := by
  simp [repetition, encodeAndTransmit, traceOpen_append, traceOpen_pulseTrain, traceOpen]

end

/-- Settles O18: every operation but `RL.key` is counted in the operations around the pulse trains. -/
theorem sendTraceCountsItsOperations : Obligations.SendTraceCountsItsOperations := by
  intro v hc addr cmd data tr
  have hcount {op : TxOp} (h : op.isKey = false) := count_sendTrace_of_not_isKey v hc addr cmd data h
  refine ⟨?_, hcount rfl, hcount rfl, hcount rfl, ?_, fun bw g d => ?_, fun us hus => ?_, hcount rfl,
    ?_, ?_⟩
  · simp [tr, sendTrace_eq, repetition, encodeAndTransmit, length_pulseTrain]
    omega
  · simp [tr, sendTrace_eq, repetition, encodeAndTransmit, countP_isKey_pulseTrain, TxOp.isKey]
    omega
  · exact List.count_eq_zero.mp ((hcount rfl).trans (by simp))
  · by_contra hne
    refine List.count_eq_zero.mp ((hcount rfl).trans ?_) hus
    simp [Ne.symm hne]
  · simp [tr, sendTrace]
  · simp [tr, sendTrace_eq, traceOpen_append, traceOpen_repetition, traceOpen]

end Sys2Proof.Machine
end

section
/-! Proofs of the statements about every turn (10_state.md, 20_memory.md sections 6 and 8,
41_transmit_scheduler.md sections 4 to 6): who writes what, what a busy block does, and the invariants. -/

namespace Sys2Proof.Machine

/-! ### Who writes what -/

/-- Only the Command agent writes the transmit side. -/
theorem takeTurn_transmit_of_ne_command {m : Config.Move} {s t : State} (hm : m ≠ .command)
    (h : takeTurn m s = .next t) :
    t.command = s.command ∧ t.radio = s.radio ∧ t.txTrace = s.txTrace ∧ t.results = s.results := by
  cases m with
  | command => exact absurd rfl hm
  | capture => cases h; rw [captureTurn_frame]; exact ⟨rfl, rfl, rfl, rfl⟩
  | tick => cases h; rw [tick_frame]; exact ⟨rfl, rfl, rfl, rfl⟩
  | edge => cases h; rw [edge_frame]; exact ⟨rfl, rfl, rfl, rfl⟩
  | present w => cases h; exact ⟨rfl, rfl, rfl, rfl⟩
  | withdraw => cases h; exact ⟨rfl, rfl, rfl, rfl⟩
  | cfgRead n => cases h; rw [cfgReadTurn_frame]; exact ⟨rfl, rfl, rfl, rfl⟩
  | cfgWrite n v => cases h; rw [cfgWriteTurn_frame]; exact ⟨rfl, rfl, rfl, rfl⟩

/-- The input, the configuration, the Capture agent, the port and the model's own records each change
only in the turns of their owners. -/
theorem takeTurn_owned {m : Config.Move} {s t : State} (h : takeTurn m s = .next t) :
    ((∀ n v, m ≠ .cfgWrite n v) → t.config = s.config)
    ∧ (m ≠ .edge → t.rx = s.rx)
    ∧ (m ≠ .capture → m ≠ .tick → m ≠ .edge → t.capture = s.capture)
    ∧ (m ≠ .command → (∀ w, m ≠ .present w) → m ≠ .withdraw → t.port = s.port)
    ∧ ((∀ n, m ≠ .cfgRead n) → t.cfgData = s.cfgData)
    ∧ t.schedule = s.schedule ∧ t.turns = s.turns := by
  cases m with
  | command => rw [commandTurn_frame h]; simp
  | capture => cases h; rw [captureTurn_frame]; simp
  | tick => cases h; rw [tick_frame]; simp
  | edge => cases h; rw [edge_frame]; simp
  | present w => cases h; simp [present]
  | withdraw => cases h; simp [withdraw]
  | cfgRead n => cases h; rw [cfgReadTurn_frame]; simp
  | cfgWrite n v => cases h; rw [cfgWriteTurn_frame]; simp

/-- Raising an interrupt does not touch the status indicator. -/
theorem raiseInterrupt_statusInd (s : State) (src : Source) :
    (s.raiseInterrupt src).capture.statusInd = s.capture.statusInd := by
  obtain ⟨hcap, -⟩ | ⟨-, -, hcap⟩ | ⟨-, -, hcap⟩ := raiseInterrupt_capture s src <;> rw [hcap]

/-- Only the Capture agent writes the status indicator. -/
theorem takeTurn_statusInd_of_ne_capture {m : Config.Move} {s t : State} (hm : m ≠ .capture)
    (h : takeTurn m s = .next t) : t.capture.statusInd = s.capture.statusInd := by
  obtain ⟨-, -, hcap, -⟩ := takeTurn_owned h
  by_cases htick : m = .tick
  · subst htick
    cases h
    obtain ⟨-, -, ht⟩ | ⟨-, ht⟩ := tick_cases s <;> rw [ht]
    · exact raiseInterrupt_statusInd s.advanceCounter .cmp
    · rfl
  · by_cases hedge : m = .edge
    · subst hedge
      cases h
      obtain ⟨-, ht⟩ | ⟨-, ht⟩ := edge_cases s <;> rw [ht]
      · exact raiseInterrupt_statusInd s.toggleRx .edge
      · rfl
    · rw [hcap hm htick hedge]

/-- The idle Command agent does nothing or accepts the word on the port. -/
theorem commandTurn_of_idle {s t : State} (hst : s.command.seq.st = .idle)
    (h : commandTurn s = .next t) : t = s ∨ ∃ w, accept w s.takeWord = .next t := by
  obtain rfl | ⟨-, ⟨-, -, w, -, hacc⟩ | hturn⟩ := commandTurn_inv h
  · exact .inl rfl
  · exact .inr ⟨w, hacc⟩
  · simp [hst] at hturn

/-- What a step of the sequencer leaves unchanged and what it can emit: the latches, the debug flag and
the port are kept, and, except by `TUNE`, the descriptor; at most one operation is emitted; the command
goes on or ends with `OK`. -/
theorem commandTurn_of_ne_idle {s t : State} (hst : s.command.seq.st ≠ .idle)
    (h : commandTurn s = .next t) :
    t.command = { s.command with busy := t.command.busy, seq := t.command.seq }
    ∧ t.port = s.port
    ∧ (s.command.seq.st ≠ .tune → t.radio.desc = s.radio.desc)
    ∧ (t.txTrace = s.txTrace ∨ ∃ op, t.txTrace = s.txTrace ++ [op])
    ∧ (t.results = s.results ∧ t.command.busy = s.command.busy
      ∨ t.results = s.results ++ [.ok] ∧ t.command.busy = false
        ∧ t.command.seq = ⟨.idle, 0, 0⟩) := by
  obtain rfl | ⟨-, hturn⟩ := commandTurn_inv h
  · exact ⟨rfl, rfl, fun _ => rfl, .inl rfl, .inl ⟨rfl, rfl⟩⟩
  obtain ⟨-, hidle, -⟩ | ⟨-, rfl⟩ | ⟨-, b, -, rfl⟩ | ⟨-, b, -, rfl⟩ | ⟨-, rfl⟩ | ⟨-, rfl⟩ | ⟨-, rfl⟩
    | ⟨htune, rfl⟩ := hturn
  · exact absurd hidle hst
  · exact ⟨rfl, rfl, fun _ => rfl, .inr ⟨_, rfl⟩, .inl ⟨rfl, rfl⟩⟩
  · exact ⟨rfl, rfl, fun _ => rfl, .inr ⟨_, rfl⟩, .inl ⟨rfl, rfl⟩⟩
  · obtain ⟨-, hgo⟩ | ⟨-, hgo⟩ := afterOffPulse_cases (s.rlKey false (offDuration b)) s.command.seq
      <;> rw [hgo] <;> exact ⟨rfl, rfl, fun _ => rfl, .inr ⟨_, rfl⟩, .inl ⟨rfl, rfl⟩⟩
  · exact ⟨rfl, rfl, fun _ => rfl, .inr ⟨_, rfl⟩, .inl ⟨rfl, rfl⟩⟩
  · obtain ⟨-, hgo⟩ | ⟨-, hgo⟩ := txDelay_cases s
      <;> rw [hgo] <;> exact ⟨rfl, rfl, fun _ => rfl, .inr ⟨_, rfl⟩, .inl ⟨rfl, rfl⟩⟩
  · exact ⟨rfl, rfl, fun _ => rfl, .inr ⟨_, rfl⟩, .inr ⟨rfl, rfl, rfl⟩⟩
  · exact ⟨rfl, rfl, absurd htune, .inr ⟨_, rfl⟩, .inr ⟨rfl, rfl, rfl⟩⟩

/-- Only the `TUNE` step writes the descriptor (R183). -/
theorem commandTurn_desc {s t : State} (hst : s.command.seq.st ≠ .tune)
    (h : commandTurn s = .next t) : t.radio.desc = s.radio.desc := by
  by_cases hidle : s.command.seq.st = .idle
  · obtain rfl | ⟨w, hacc⟩ := commandTurn_of_idle hidle h
    · rfl
    · rw [accept_frame hacc]
      rfl
  · obtain ⟨-, -, hdesc, -⟩ := commandTurn_of_ne_idle hidle h
    exact hdesc hst

/-- Settles O58: each clause is the frame of the turns that do not own the field. -/
theorem onlyTheOwnerWritesItsState : Obligations.OnlyTheOwnerWritesItsState := by
  intro m s t h
  obtain ⟨hconfig, hrx, hcap, hport, hcfg, hschedule, hturns⟩ := takeTurn_owned h
  have htransmit := fun hm : m ≠ .command => takeTurn_transmit_of_ne_command hm h
  refine ⟨(takeTurn_params_tcnt h).1, htransmit, fun hm => takeTurn_tcnt_of_ne_tick hm h, hconfig, hrx,
    hcap, fun hm => ?_, hport, hcfg, fun hst => ?_, fun hst => ?_, hschedule, hturns⟩
  · have hkeep := takeTurn_keepsPending hm h
    exact ⟨hkeep.rxTrace, takeTurn_statusInd_of_ne_capture hm h, hkeep.inIrq, hkeep.initDone⟩
  · by_cases hm : m = .command
    · subst hm
      exact commandTurn_desc hst h
    · rw [(htransmit hm).2.1]
  · by_cases hm : m = .command
    · subst hm
      obtain ⟨hcommand, hport', -⟩ := commandTurn_of_ne_idle hst h
      exact ⟨by rw [hcommand], fun _ => hport'⟩
    · exact ⟨by rw [(htransmit hm).1], fun hm' => absurd hm' hm⟩

/-! ### A busy block -/

/-- A busy coherent block is at a step of the sequencer (R25). -/
theorem SeqCoherent.ne_idle {s : State} (hs : SeqCoherent s) (hbusy : s.command.busy = true) :
    s.command.seq.st ≠ .idle := hs.1.mp hbusy

/-- Settles O31: a step of the sequencer goes on or ends with `OK`. -/
theorem resultFollowsTheLastOperation : Obligations.ResultFollowsTheLastOperation := by
  intro s t hs hbusy h
  obtain ⟨-, -, -, htx, hresult⟩ := commandTurn_of_ne_idle (hs.ne_idle hbusy) h
  exact ⟨hresult.imp_left (.imp_right (·.trans hbusy)), htx⟩

/-- Settles O32: a step of the sequencer does not touch the port, nor do the other agents' turns. -/
theorem presentedWordWaitsWhileBusy : Obligations.PresentedWordWaitsWhileBusy := by
  intro s t m w hs hbusy hw h hpresent hwithdraw
  by_cases hm : m = .command
  · subst hm
    obtain ⟨-, hport, -⟩ := commandTurn_of_ne_idle (hs.ne_idle hbusy) h
    exact hport.trans hw
  · obtain ⟨-, -, -, hport, -⟩ := takeTurn_owned h
    exact (hport hm hpresent hwithdraw).trans hw

/-- While `BUSY` is 1 the Command agent's turn writes none of its registers but `BUSY` and `SEQ`. -/
theorem commandTurn_latches_of_busy {s t : State} (hbusy : s.command.busy = true)
    (h : commandTurn s = .next t) :
    t.command = { s.command with busy := t.command.busy, seq := t.command.seq } := by
  by_cases hst : s.command.seq.st = .idle
  · rw [commandTurn_of_not_accepting hst (.inr (.inl hbusy))] at h
    cases h
    rfl
  · exact (commandTurn_of_ne_idle hst h).1

/-- Settles O30: the other agents write nothing of the transmit side, and the Command agent ends a
command with `OK`. -/
theorem nothingAbortsACommand : Obligations.NothingAbortsACommand := by
  intro s t m hbusy h
  by_cases hm : m = .command
  · subst hm
    have hlatches := commandTurn_latches_of_busy hbusy h
    refine ⟨absurd rfl, fun _ => ?_, fun hs hidle => ?_⟩
    · rw [hlatches]
      exact ⟨rfl, rfl, rfl, rfl, rfl, rfl, rfl⟩
    · obtain ⟨⟨-, hstill⟩ | ⟨hok, -⟩, -⟩ := resultFollowsTheLastOperation s t hs hbusy h
      · simp [hidle] at hstill
      · exact hok
  · have htransmit := takeTurn_transmit_of_ne_command hm h
    have hcommand := htransmit.1
    refine ⟨fun _ => htransmit, fun _ => ?_, fun _ hidle => ?_⟩
    · rw [hcommand]
      exact ⟨rfl, rfl, rfl, rfl, rfl, rfl, rfl⟩
    · simp [hcommand, hbusy] at hidle

end Sys2Proof.Machine
end

section
/-! Proofs of the invariants (10_state.md sections 2 and 4, 20_memory.md section 6,
41_transmit_scheduler.md sections 4 and 5): launch states meet them and every step keeps them. -/

namespace Sys2Proof.Machine

/-! ### `SEQ`, `BUSY`, `KIND` and `RL.open` (R24, R25) -/

theorem inTransaction_iff (st : St) :
    st.inTransaction = true ↔ st = .txOn ∨ st = .txOff ∨ st = .txEnd := by
  cases st <;> decide

/-- Coherence speaks of the Command agent's registers and of `RL.open` only. -/
theorem SeqCoherent.of_eq {s t : State} (hcommand : t.command = s.command)
    (hopen : t.radio.isOpen = s.radio.isOpen) (hs : SeqCoherent s) : SeqCoherent t := by
  simpa only [SeqCoherent, State.frame, hcommand, hopen] using hs

theorem SeqCoherent.dropMove {s : State} (hs : SeqCoherent s) : SeqCoherent s.dropMove :=
  hs.of_eq s.dropMove_command (by rw [s.dropMove_radio])

/-- What coherence says of a block in a send: the repetition, the index and `RL.open` at the step. -/
structure InSend (s : State) : Prop where
  inSend : s.command.seq.st.inSend = true
  busy : s.command.busy = true
  kind : s.command.kind = .send
  rep : s.command.seq.rep ≤ 2
  idx_lt : s.command.seq.st.inTransaction = true → s.command.seq.idx < s.frame.length
  idx_zero : s.command.seq.st.inTransaction = false → s.command.seq.idx = 0
  isOpen : s.radio.isOpen = s.command.seq.st.inTransaction

theorem SeqCoherent.toInSend {s : State} (hs : SeqCoherent s)
    (h : s.command.seq.st.inSend = true) : InSend s := by
  obtain ⟨hbusy, hrep, hlt, hzero, -, hkind, -, hopen⟩ := hs
  refine ⟨h, hbusy.mpr ?_, hkind h, hrep, fun hin => hlt ((inTransaction_iff _).mp hin), hzero, hopen⟩
  intro hidle
  simp [hidle, St.inSend] at h

theorem InSend.seqCoherent {s : State} (h : InSend s) : SeqCoherent s := by
  have hst : s.command.seq.st ≠ .idle ∧ s.command.seq.st ≠ .tune := by
    constructor <;> intro hst <;> simpa [hst, St.inSend] using h.inSend
  exact ⟨by simp [h.busy, hst], h.rep, fun hin => h.idx_lt ((inTransaction_iff _).mpr hin), h.idx_zero,
    by simp [hst], fun _ => h.kind, by simp [hst], h.isOpen⟩

theorem seqCoherent_of_idle {s : State} (hbusy : s.command.busy = false)
    (hseq : s.command.seq = ⟨.idle, 0, 0⟩) (hopen : s.radio.isOpen = false) : SeqCoherent s := by
  simp [SeqCoherent, hbusy, hseq, hopen, St.inTransaction, St.inSend]

theorem frame_length_pos (s : State) : 0 < s.frame.length := by
  simp [State.frame, length_frameBits]

/-- The accept step keeps coherence: a send or a tuning command starts from the idle block, and the
other outcomes leave it idle. -/
theorem accept_seqCoherent {w : CommandWord} {s t : State} (hs : SeqCoherent s)
    (hidle : s.command.seq.st = .idle) (h : accept w s = .next t) : SeqCoherent t := by
  have hopen : s.radio.isOpen = false := by
    obtain ⟨-, -, -, -, -, -, -, hopen⟩ := hs
    rw [hopen, hidle]
    rfl
  obtain ⟨v, hc, ad, cm, da, rfl⟩ | ⟨k, v, hk, rfl⟩ | ⟨v, -, rfl⟩ | rfl := accept_inv h
  · exact InSend.seqCoherent ⟨rfl, rfl, rfl, Nat.zero_le 2, by simp [St.inTransaction], fun _ => rfl, hopen⟩
  · simp [SeqCoherent, hk, hopen, St.inTransaction, St.inSend]
  · exact hs
  · exact hs

/-- Each step of the Command agent keeps coherence. -/
theorem commandTurn_seqCoherent {s t : State} (hs : SeqCoherent s) (h : commandTurn s = .next t) :
    SeqCoherent t := by
  obtain rfl | ⟨-, hturn⟩ := commandTurn_inv h
  · exact hs
  have hsend (hst : s.command.seq.st.inSend = true) := hs.toInSend hst
  obtain ⟨-, hst, w, -, hacc⟩ | ⟨hst, rfl⟩ | ⟨hst, b, -, rfl⟩ | ⟨hst, b, -, rfl⟩ | ⟨hst, rfl⟩
    | ⟨hst, rfl⟩ | ⟨hst, rfl⟩ | ⟨hst, rfl⟩ := hturn <;> simp only [hst] at hsend
  · exact accept_seqCoherent (s := s.takeWord) hs hst hacc
  · have hin := hsend rfl
    exact InSend.seqCoherent
      ⟨rfl, hin.busy, hin.kind, hin.rep, fun _ => frame_length_pos s, fun _ => rfl, rfl⟩
  · have hin := hsend rfl
    exact InSend.seqCoherent ⟨rfl, hin.busy, hin.kind, hin.rep, fun _ => hin.idx_lt (by rw [hst]; rfl),
      nofun, hin.isOpen.trans (by rw [hst]; rfl)⟩
  · have hin := hsend rfl
    have hopen : s.radio.isOpen = true := hin.isOpen.trans (by rw [hst]; rfl)
    obtain ⟨hlt, hgo⟩ | ⟨-, hgo⟩ := afterOffPulse_cases (s.rlKey false (offDuration b)) s.command.seq
      <;> rw [hgo]
    · exact InSend.seqCoherent ⟨rfl, hin.busy, hin.kind, hin.rep, fun _ => hlt, nofun, hopen⟩
    · exact InSend.seqCoherent ⟨rfl, hin.busy, hin.kind, hin.rep,
        fun _ => hin.idx_lt (by rw [hst]; rfl), nofun, hopen⟩
  · have hin := hsend rfl
    exact InSend.seqCoherent ⟨rfl, hin.busy, hin.kind, hin.rep, nofun, fun _ => rfl, rfl⟩
  · have hin := hsend rfl
    have hopen : s.radio.isOpen = false := hin.isOpen.trans (by rw [hst]; rfl)
    obtain ⟨hlt, hgo⟩ | ⟨-, hgo⟩ := txDelay_cases s <;> rw [hgo]
    · exact InSend.seqCoherent ⟨rfl, hin.busy, hin.kind, hlt, nofun, fun _ => rfl, hopen⟩
    · exact InSend.seqCoherent ⟨rfl, hin.busy, hin.kind, le_rfl, nofun, fun _ => rfl, hopen⟩
  · exact seqCoherent_of_idle rfl rfl ((hsend rfl).isOpen.trans (by rw [hst]; rfl))
  · obtain ⟨-, -, -, -, -, -, -, hopen⟩ := hs
    exact seqCoherent_of_idle rfl rfl (hopen.trans (by rw [hst]; rfl))

/-- Settles O53: the Command agent's steps keep coherence, the other turns do not touch it. -/
theorem everyStepKeepsTheSequencerCoherent : Obligations.EveryStepKeepsTheSequencerCoherent := by
  intro s t hs h
  rw [step] at h
  by_cases hm : nextMove s = .command
  · rw [hm] at h
    exact commandTurn_seqCoherent hs.dropMove h
  · obtain ⟨hcommand, hradio, -⟩ := takeTurn_transmit_of_ne_command hm h
    exact hs.dropMove.of_eq hcommand (by rw [hradio])

/-! ### Coherent states do not stop (R220) -/

theorem currentBit_of_inTransaction {s : State} (hs : SeqCoherent s)
    (hst : s.command.seq.st.inTransaction = true) : ∃ b, s.currentBit = some b := by
  obtain ⟨-, -, hlt, -⟩ := hs
  exact ⟨_, List.getElem?_eq_getElem (hlt ((inTransaction_iff _).mp hst))⟩

theorem acceptTurn_total (s : State) : ∃ t, acceptTurn s = .next t := by
  unfold acceptTurn
  split
  · split
    · exact accept_total _ _
    · exact ⟨s, rfl⟩
  · exact ⟨s, rfl⟩

theorem commandTurn_total {s : State} (hs : SeqCoherent s) : ∃ t, commandTurn s = .next t := by
  have hbit := currentBit_of_inTransaction hs
  unfold commandTurn
  split
  case isFalse => exact ⟨s, rfl⟩
  case isTrue =>
    split
    case h_1 => exact acceptTurn_total s
    case h_3 hst =>
      obtain ⟨b, hb⟩ := hbit (by rw [hst]; rfl)
      simp [txOn, hb]
    case h_4 hst =>
      obtain ⟨b, hb⟩ := hbit (by rw [hst]; rfl)
      simp [txOff, hb]
    all_goals exact ⟨_, rfl⟩

/-- Settles O57: in a coherent state the steps that look up a bit find one, and nothing else can stop. -/
theorem coherentStatesNeverStop : Obligations.CoherentStatesNeverStop := by
  intro s hs
  rw [step]
  cases nextMove s with
  | command => exact commandTurn_total hs.dropMove
  | _ => exact ⟨_, rfl⟩

/-! ### The transmit trace (R171) -/

/-- Emitting an operation that is allowed where the trace stands keeps it bracketed. -/
theorem TraceBracketed.append {s t : State} {op : TxOp} (hs : TraceBracketed s)
    (htx : t.txTrace = s.txTrace ++ [op])
    (hop : traceOpen s.radio.isOpen [op] = some t.radio.isOpen) : TraceBracketed t := by
  rw [TraceBracketed, htx, traceOpen_append, hs]
  exact hop

theorem TraceBracketed.of_eq {s t : State} (hopen : t.radio.isOpen = s.radio.isOpen)
    (htx : t.txTrace = s.txTrace) (hs : TraceBracketed s) : TraceBracketed t := by
  rw [TraceBracketed, htx, hopen]
  exact hs

/-- Each step of the Command agent emits an operation that its position allows. -/
theorem commandTurn_traceBracketed {s t : State} (hcoh : SeqCoherent s) (hs : TraceBracketed s)
    (h : commandTurn s = .next t) : TraceBracketed t := by
  obtain rfl | ⟨-, hturn⟩ := commandTurn_inv h
  · exact hs
  obtain ⟨-, -, -, -, -, -, -, hopen⟩ := hcoh
  obtain ⟨-, hst, w, -, hacc⟩ | ⟨hst, rfl⟩ | ⟨hst, b, -, rfl⟩ | ⟨hst, b, -, rfl⟩ | ⟨hst, rfl⟩
    | ⟨hst, rfl⟩ | ⟨hst, rfl⟩ | ⟨hst, rfl⟩ := hturn <;> simp only [hst, St.inTransaction] at hopen
  · rw [accept_frame hacc]
    exact hs
  · exact hs.append rfl (by rw [hopen]; rfl)
  · exact hs.append rfl (by rw [hopen]; exact congrArg some hopen.symm)
  · obtain ⟨-, hgo⟩ | ⟨-, hgo⟩ := afterOffPulse_cases (s.rlKey false (offDuration b)) s.command.seq
      <;> rw [hgo] <;> exact hs.append rfl (by rw [hopen]; exact congrArg some hopen.symm)
  · exact hs.append rfl (by rw [hopen]; rfl)
  · obtain ⟨-, hgo⟩ | ⟨-, hgo⟩ := txDelay_cases s
      <;> rw [hgo] <;> exact hs.append rfl (by rw [hopen]; exact congrArg some hopen.symm)
  · exact hs.append rfl (by rw [hopen]; exact congrArg some hopen.symm)
  · exact hs.append rfl (by rw [hopen]; exact congrArg some hopen.symm)

/-- Settles O54: the Command agent's steps keep the trace bracketed, the other turns do not touch it. -/
theorem everyStepKeepsTheTraceBracketed : Obligations.EveryStepKeepsTheTraceBracketed := by
  intro s t hcoh hs h
  have hdrop : TraceBracketed s.dropMove := hs.of_eq (by rw [s.dropMove_radio]) s.dropMove_txTrace
  rw [step] at h
  by_cases hm : nextMove s = .command
  · rw [hm] at h
    exact commandTurn_traceBracketed hcoh.dropMove hdrop h
  · obtain ⟨-, hradio, htx, -⟩ := takeTurn_transmit_of_ne_command hm h
    exact hdrop.of_eq (by rw [hradio]) htx

/-! ### Nothing before init (R36, R72 item 2) -/

/-- Before init no turn but the Capture agent's adds to a trace, raises an interrupt, or starts a
command; the Capture agent's forwards `DEC.onInit()`. -/
theorem takeTurn_initFirst_of_not_initDone {m : Config.Move} {s t : State} (hs : InitFirst s)
    (hinit : s.capture.initDone = false) (h : takeTurn m s = .next t) : InitFirst t := by
  obtain ⟨hrx, -, -, -, -, hedgeIe, hcmpIe, -⟩ := hs.1 hinit
  cases m with
  | command => cases (commandTurn_of_not_initDone hinit).symm.trans h; exact hs
  | capture =>
    cases h
    rw [captureTurn_of_not_initDone hinit]
    simp [InitFirst, hrx]
  | tick => cases h; rw [tick_of_no_new_match (.inr (.inl hcmpIe))]; exact hs
  | edge => cases h; rw [edge_of_no_new_edge (.inl hedgeIe)]; exact hs
  | present w => cases h; exact hs
  | withdraw => cases h; exact hs
  | cfgRead n => cases h; rw [cfgReadTurn_of_not_initDone hinit]; exact hs
  | cfgWrite n v => cases h; rw [cfgWriteTurn_of_not_initDone hinit]; exact hs

/-- A turn only adds to the receive trace. -/
theorem takeTurn_rxTrace_append {m : Config.Move} {s t : State} (h : takeTurn m s = .next t) :
    ∃ events, t.rxTrace = s.rxTrace ++ events := by
  by_cases hm : m = .capture
  · subst hm
    cases h
    obtain ⟨-, ht⟩ | ⟨-, -, ht⟩ | ⟨-, -, ht⟩ | ⟨-, -, -, ht⟩ | ⟨-, -, -, -, ht⟩ := captureTurn_cases s
      <;> rw [ht]
    · exact ⟨[.onInit], rfl⟩
    · exact ⟨[], (List.append_nil _).symm⟩
    · rw [serviceEdge_eq]; exact ⟨[.onEdge s.tcnt s.rx], rfl⟩
    · exact ⟨[.onTimeout], rfl⟩
    · exact ⟨[], (List.append_nil _).symm⟩
  · exact ⟨[], by rw [(takeTurn_keepsPending hm h).rxTrace, List.append_nil]⟩

/-- Past init the first event stays first and no other `DEC.onInit()` is forwarded. -/
theorem takeTurn_initFirst_of_initDone {m : Config.Move} {s t : State} (hs : InitFirst s)
    (hinit : s.capture.initDone = true) (h : takeTurn m s = .next t) : InitFirst t := by
  obtain ⟨hhead, hcount⟩ := hs.2 hinit
  have hdone := takeTurn_initDone hinit h
  refine ⟨fun hno => by simp [hdone] at hno, fun _ => ⟨?_, ?_⟩⟩
  · obtain ⟨events, hevents⟩ := takeTurn_rxTrace_append h
    rw [hevents, List.head?_append, hhead]
    rfl
  · rw [takeTurn_count_onInit hinit h, hcount]

/-- Settles O55: before init and after it, whatever the turn. -/
theorem everyStepKeepsInitFirst : Obligations.EveryStepKeepsInitFirst := by
  intro s t hs h
  have hdrop : InitFirst s.dropMove := by simpa [InitFirst] using hs
  rw [step] at h
  cases hinit : s.dropMove.capture.initDone
  · exact takeTurn_initFirst_of_not_initDone hdrop hinit h
  · exact takeTurn_initFirst_of_initDone hdrop hinit h

/-! ### What the build hard-wires (R28, R35) -/

/-- `DEBUG` changes in a debug build only. -/
theorem takeTurn_debug {m : Config.Move} {s t : State} (hbuild : s.params.debugBuild = false)
    (h : takeTurn m s = .next t) : t.command.debug = s.command.debug := by
  by_cases hm : m = .command
  · subst hm
    by_cases hst : s.command.seq.st = .idle
    · obtain rfl | ⟨w, hacc⟩ := commandTurn_of_idle hst h
      · rfl
      · obtain ⟨v, hc, ad, cm, da, rfl⟩ | ⟨k, v, -, rfl⟩ | ⟨v, hbuilt, -⟩ | rfl := accept_inv hacc
        · rfl
        · rfl
        · exact absurd hbuilt (by simp [hbuild])
        · rfl
    · rw [(commandTurn_of_ne_idle hst h).1]
  · rw [(takeTurn_transmit_of_ne_command hm h).1]

/-- The status indicator changes in a build with the mirror only. -/
theorem takeTurn_statusInd {m : Config.Move} {s t : State} (hbuild : s.params.mirrorEdge = false)
    (h : takeTurn m s = .next t) : t.capture.statusInd = s.capture.statusInd := by
  by_cases hm : m = .capture
  · subst hm
    cases h
    obtain ⟨-, ht⟩ | ⟨-, -, ht⟩ | ⟨-, -, ht⟩ | ⟨-, -, -, ht⟩ | ⟨-, -, -, -, ht⟩ := captureTurn_cases s
      <;> rw [ht]
    · rfl
    · rfl
    · simp [serviceEdge_eq, hbuild]
    · rfl
  · exact takeTurn_statusInd_of_ne_capture hm h

/-- Settles O56: no turn changes the build, and without its flag no turn changes what is hard-wired. -/
theorem everyStepKeepsTheBuildHardWired : Obligations.EveryStepKeepsTheBuildHardWired := by
  intro s t ⟨hdebug, hmirror⟩ h
  rw [step] at h
  have hparams : t.params = s.params := (takeTurn_params_tcnt h).1.trans s.dropMove_params
  rw [BuildHardWired, hparams]
  refine ⟨⟨fun hd => ?_, fun hm => ?_⟩, rfl⟩
  · rw [takeTurn_debug (by simpa using hd) h, s.dropMove_command, hdebug hd]
  · rw [takeTurn_statusInd (by simpa using hm) h, s.dropMove_capture, hmirror hm]

/-! ### Launch states -/

theorem resetWith_inv (p : Config.Params) (v : LaunchValues) : (State.resetWith p v).Inv :=
  ⟨seqCoherent_of_idle rfl rfl rfl, rfl, by simp [InitFirst, State.resetWith],
    fun _ => rfl, fun _ => rfl⟩

/-- Settles O52: a launch state is a reset state, and the reference build launches. -/
theorem launchStatesMeetTheInvariant : Obligations.LaunchStatesMeetTheInvariant := by
  refine ⟨fun s ⟨p, v, h⟩ => ?_, Config.Params.reference, LaunchValues.zero,
    launch_eq_some_iff.mpr ⟨by decide, rfl⟩⟩
  obtain ⟨-, rfl⟩ := launch_eq_some_iff.mp h
  exact resetWith_inv p v

/-- Settles O60: `CHK` is by definition the checksum of the latches, and the last byte of the frame. -/
theorem chkIsTheChecksumOfTheLatches : Obligations.ChkIsTheChecksumOfTheLatches := by
  refine ⟨fun s => ⟨rfl, ?_⟩, fun p v s h => ?_, fun s hc addr cmd data =>
    ⟨_, sendABeginsASend s hc addr cmd data, rfl⟩⟩
  · rw [fieldBytes_eq_operandBytes_append, List.getLast?_concat]
    rfl
  · obtain ⟨-, rfl⟩ := launch_eq_some_iff.mp h
    rfl

end Sys2Proof.Machine
end

section
/-! Proofs of the statements about runs of the Timing Base, the interrupts and the configuration port
(20_memory.md section 4, 43_timing_base.md sections 3 and 4, 60_exceptions.md sections 3 and 5). -/

namespace Sys2Proof.Machine

/-! ### Configuration writes (20_memory.md R66) -/

/-- A configuration write as one update of the configuration. -/
theorem cfgWrite_eq_ite (n : Fin 8) (v : Byte) (s : State) : cfgWrite n v s = { s with config :=
    { ocr := if n = 1 then v else s.config.ocr
      edgeIe := if n = 2 then v.getLsbD 0 else s.config.edgeIe
      cmpIe := if n = 2 then v.getLsbD 1 else s.config.cmpIe } } := by
  by_cases h1 : n = 1
  · subst h1; rfl
  · by_cases h2 : n = 2
    · subst h2; rfl
    · simp [cfgWrite_of_ne h1 h2, h1, h2]

/-! ### The compare value over a run (R210, R246) -/

/-- Only a write of register 1 changes the compare value. -/
theorem takeTurn_ocr {m : Config.Move} {s t : State} (hm : ∀ v, m ≠ .cfgWrite 1 v)
    (h : takeTurn m s = .next t) : t.config.ocr = s.config.ocr := by
  obtain ⟨hconfig, -⟩ := takeTurn_owned h
  cases m with
  | cfgWrite n v =>
    have hn : n ≠ 1 := fun hn => hm v (by rw [hn])
    cases h
    simp only [cfgWriteTurn, cfgWrite_eq_ite, if_neg hn]
    split <;> rfl
  | _ => rw [hconfig (by simp)]

/-- With no match pending no timeout is forwarded. -/
theorem takeTurn_count_onTimeout {m : Config.Move} {s t : State} (hpend : s.capture.cmpPend = false)
    (h : takeTurn m s = .next t) : t.rxTrace.count .onTimeout = s.rxTrace.count .onTimeout := by
  refine ((timeoutServiceForwardsNoValue s).2 m t h ?_).1
  rintro ⟨-, -, hcmp, -⟩
  simp [hpend] at hcmp

/-- Settles O35, by induction on the turns: each tick takes the counter one nearer to the compare value,
and does not reach it while ticks are left in the bound. -/
theorem noTimeoutBeforeTheCompareValue : Obligations.NoTimeoutBeforeTheCompareValue := by
  intro ms
  induction ms with
  | nil => intro s t _ _ hpend h; cases h; exact ⟨hpend, rfl⟩
  | cons m ms ih =>
    intro s t hms hcount hpend h
    obtain ⟨u, hu, hrun⟩ := runMoves_cons_inv h
    have hocr : u.config.ocr = s.config.ocr :=
      takeTurn_ocr (fun v hm => hms v (hm ▸ List.mem_cons_self)) hu
    have hrest : ∀ v, Config.Move.cfgWrite 1 v ∉ ms := fun v hv => hms v (List.mem_cons_of_mem _ hv)
    obtain ⟨-, htcnt⟩ := takeTurn_params_tcnt hu
    have hstep : u.capture.cmpPend = false
        ∧ ms.count .tick ≤ (u.config.ocr - u.tcnt - 1).toNat := by
      rw [hocr, htcnt]
      by_cases hm : m = .tick
      · subst hm
        rw [List.count_cons_self] at hcount
        rw [if_pos rfl]
        have hne : s.tcnt + 1 ≠ s.config.ocr := by bv_omega
        refine ⟨?_, by bv_omega⟩
        cases hu
        rw [tick_of_no_new_match (.inl hne)]
        exact hpend
      · rw [List.count_cons_of_ne hm] at hcount
        rw [if_neg hm]
        exact ⟨takeTurn_cmpPend_of_ne_tick hm hu hpend, hcount⟩
    obtain ⟨hpend', hcount'⟩ := hstep
    obtain ⟨hdone, htimeouts⟩ := ih u t hrest hcount' hpend' hrun
    exact ⟨hdone, htimeouts.trans (takeTurn_count_onTimeout hpend hu)⟩

/-- A tick that reaches the compare value with the match enabled leaves the match pending. -/
theorem tick_cmpPend_of_match {s : State} (hocr : s.tcnt + 1 = s.config.ocr)
    (hie : s.config.cmpIe = true) : (tick s).capture.cmpPend = true := by
  cases hpend : s.capture.cmpPend
  · rw [tick_of_new_match hocr hie hpend]
  · rw [tick_of_no_new_match (.inr (.inr hpend))]
    exact hpend

/-- A run without configuration writes keeps the configuration. -/
theorem runMoves_config {ms : List Config.Move} {s t : State}
    (hms : ∀ n v, Config.Move.cfgWrite n v ∉ ms) (h : runMoves ms s = .next t) :
    t.config = s.config := by
  induction ms generalizing s with
  | nil => cases h; rfl
  | cons m ms ih =>
    obtain ⟨u, hu, hrun⟩ := runMoves_cons_inv h
    obtain ⟨hconfig, -⟩ := takeTurn_owned hu
    rw [ih (fun n v hv => hms n v (List.mem_cons_of_mem _ hv)) hrun,
      hconfig fun n v hm => hms n v (hm ▸ List.mem_cons_self)]

/-- Settles O36: the counter has advanced by the ticks, so the last tick reaches the compare value. -/
theorem reachingTheCompareValueRaisesTheMatch :
    Obligations.ReachingTheCompareValueRaisesTheMatch := by
  intro ms s t hms hcount hie h
  obtain ⟨u, hrun, htick⟩ := runMoves_append_inv h
  cases htick
  have hconfig := runMoves_config hms hrun
  have hocr : u.tcnt + 1 = s.config.ocr := by
    rw [counterCountsTicksOnly ms s u hrun, hcount, BitVec.ofNat_toNat]
    bv_omega
  refine ⟨?_, tick_cmpPend_of_match (by rw [hconfig, hocr]) (by rw [hconfig, hie])⟩
  rw [tick_frame]
  exact hocr

/-! ### The two conversions (R205 to R207) -/

/-- Settles O39: each conversion is one division, which never gains and is monotone. -/
theorem conversionRoundTripsNeverGain : Obligations.ConversionRoundTripsNeverGain := by
  intro p P hclk hP
  have hperiod : 0 < P * 1000000 := by omega
  unfold ticksToUsWith usToTicksWith
  refine ⟨fun us => ?_, fun t => ?_, fun hdvd t => ?_, fun a b hab => ⟨?_, ?_⟩, by simp, by simp⟩
  · refine Nat.div_le_of_le_mul ?_
    calc us * p.fClkHz / (P * 1000000) * 1000000 * P
        = us * p.fClkHz / (P * 1000000) * (P * 1000000) := by ring
      _ ≤ us * p.fClkHz := Nat.div_mul_le_self _ _
      _ = p.fClkHz * us := Nat.mul_comm _ _
  · refine Nat.div_le_of_le_mul ?_
    calc t * 1000000 * P / p.fClkHz * p.fClkHz
        ≤ t * 1000000 * P := Nat.div_mul_le_self _ _
      _ = P * 1000000 * t := by ring
  · have hwhole : p.fClkHz ∣ t * 1000000 * P := by
      rw [Nat.mul_assoc]
      exact hdvd.mul_left t
    rw [Nat.div_mul_cancel hwhole, Nat.mul_assoc, Nat.mul_comm 1000000 P,
      Nat.mul_div_cancel _ hperiod]
  · exact Nat.div_le_div_right (Nat.mul_le_mul_right _ hab)
  · exact Nat.div_le_div_right (Nat.mul_le_mul_right _ (Nat.mul_le_mul_right _ hab))

/-! ### Late service (R232) -/

/-- A tick or an edge in between leaves the edge service step the one that is due: an edge is merged
into the pending one, a compare match queues behind it. -/
theorem edgeServiceEnabled_of_tick_or_edge {m : Config.Move} {s t : State} (hm : m = .tick ∨ m = .edge)
    (hs : edgeServiceEnabled s = true) (h : takeTurn m s = .next t) : edgeServiceEnabled t = true := by
  obtain ⟨hinit, hpend, hirq, horder⟩ := (edgeServiceEnabled_iff s).mp hs
  obtain rfl | rfl := hm
  · cases h
    by_cases hnew : s.tcnt + 1 ≠ s.config.ocr ∨ s.config.cmpIe = false ∨ s.capture.cmpPend = true
    · rw [tick_of_no_new_match hnew]
      exact hs
    · simp only [not_or, not_not, Bool.not_eq_false, Bool.not_eq_true] at hnew
      obtain ⟨hocr, hie, hcmp⟩ := hnew
      rw [tick_of_new_match hocr hie hcmp, edgeServiceEnabled_iff]
      exact ⟨hinit, hpend, hirq, .inr (if_pos hpend)⟩
  · cases h
    rw [edge_of_no_new_edge (.inr hpend)]
    exact hs

/-- Only an edge toggles the input. -/
theorem takeTurn_rx {m : Config.Move} {s t : State} (h : takeTurn m s = .next t) :
    t.rx = if m = .edge then !s.rx else s.rx := by
  split
  · next hm =>
    subst hm
    cases h
    rw [edge_frame]
  · next hm =>
    obtain ⟨-, hrx, -⟩ := takeTurn_owned h
    exact hrx hm

/-- Over any turns the input toggles once an edge. -/
theorem runMoves_rx {ms : List Config.Move} {s t : State} (h : runMoves ms s = .next t) :
    t.rx = (s.rx ^^ (ms.count .edge % 2 == 1)) := by
  induction ms generalizing s with
  | nil => cases h; simp
  | cons m ms ih =>
    obtain ⟨u, hu, hrun⟩ := runMoves_cons_inv h
    rw [ih hrun, takeTurn_rx hu]
    by_cases hm : m = .edge
    · subst hm
      rw [if_pos rfl, List.count_cons_self]
      obtain hpar | hpar := Nat.mod_two_eq_zero_or_one (ms.count .edge) <;>
        simp [Nat.add_mod, hpar]
    · rw [if_neg hm, List.count_cons_of_ne hm]

/-- Ticks and edges leave the edge service step due. -/
theorem runMoves_edgeServiceEnabled {ms : List Config.Move} {s t : State}
    (hms : ∀ m ∈ ms, m = .tick ∨ m = .edge) (hs : edgeServiceEnabled s = true)
    (h : runMoves ms s = .next t) : edgeServiceEnabled t = true := by
  induction ms generalizing s with
  | nil => cases h; exact hs
  | cons m ms ih =>
    obtain ⟨u, hu, hrun⟩ := runMoves_cons_inv h
    obtain ⟨hm, hms⟩ := List.forall_mem_cons.mp hms
    exact ih hms (edgeServiceEnabled_of_tick_or_edge hm hs hu) hrun

/-- Settles O46: the first edge makes the edge service step due, which is then taken with the counter
and the level of its own time. -/
theorem lateServiceReportsTheServiceTime : Obligations.LateServiceReportsTheServiceTime := by
  intro s t ms hinit hirq hie hedge hcmp hms h
  rw [runMoves_cons_next (takeTurn_edge s), edge_of_new_edge hie hedge] at h
  obtain ⟨u, hrun, hservice⟩ := runMoves_append_inv h
  have hdue : edgeServiceEnabled u = true := by
    refine runMoves_edgeServiceEnabled hms ?_ hrun
    rw [edgeServiceEnabled_iff]
    exact ⟨hinit, rfl, hirq, .inl hcmp⟩
  have hcapture : Config.Move.capture ∉ ms := fun hmem => by simpa using hms _ hmem
  have hrx : u.rx = (s.rx ^^ (ms.count .edge % 2 == 0)) := by
    rw [runMoves_rx hrun]
    obtain hpar | hpar := Nat.mod_two_eq_zero_or_one (ms.count .edge) <;> simp [hpar]
  cases hservice
  rw [captureTurn_of_edgeServiceEnabled hdue, serviceEdge_eq,
    (runMoves_keepsPending hcapture hrun).rxTrace, counterCountsTicksOnly ms _ u hrun, hrx]
  exact ⟨rfl, rfl⟩

/-! ### Configuration accesses (20_memory.md R66) -/

/-- Settles O50: the two accesses as updates; a match needs the whole way round the counter, and a
service step does not look at the enables. -/
theorem configurationAccessesTakeEffect : Obligations.ConfigurationAccessesTakeEffect := by
  refine ⟨fun s n => rfl, fun s n v => ?_, fun s t k hinit hie hpend h hk => ?_,
    fun s t hinit hirq hone h => ?_⟩
  · rw [takeTurn_cfgWrite, cfgWriteTurn, cfgWrite_eq_ite]
  · rw [runMoves_cons_next (takeTurn_cfgWrite_of_initDone hinit 1 s.tcnt)] at h
    have hcount (j : Nat) : (List.replicate j Config.Move.tick).count .tick = j :=
      List.count_replicate_self
    have hticks (j : Nat) (n : Fin 8) (v : Byte) : .cfgWrite n v ∉ List.replicate j Config.Move.tick :=
      fun hmem => by simpa using List.eq_of_mem_replicate hmem
    have hround : ((cfgWrite 1 s.tcnt s).config.ocr - (cfgWrite 1 s.tcnt s).tcnt - 1).toNat = 255 := by
      change (s.tcnt - s.tcnt - 1).toNat = 255
      simp
    obtain hlt | rfl : k ≤ 255 ∨ k = 256 := by omega
    · obtain ⟨hno, -⟩ := noTimeoutBeforeTheCompareValue (List.replicate k .tick)
        (cfgWrite 1 s.tcnt s) t (hticks k 1) (by rw [hcount, hround]; exact hlt) hpend h
      simp [hno]
      omega
    · rw [List.replicate_succ'] at h
      obtain ⟨-, hmatch⟩ := reachingTheCompareValueRaisesTheMatch (List.replicate 255 .tick)
        (cfgWrite 1 s.tcnt s) t (hticks 255) ((hcount 255).trans hround.symm) hie h
      simp [hmatch]
  · rw [runMoves_cons_next (takeTurn_cfgWrite_of_initDone hinit 2 0)] at h
    cases h
    refine ⟨fun hedge => ?_, fun hcmp => ?_⟩
    · have hdue : edgeServiceEnabled (cfgWrite 2 0 s) = true :=
        (edgeServiceEnabled_iff _).mpr
          ⟨hinit, hedge, hirq, .inl (hone.resolve_left (by simp [hedge]))⟩
      rw [captureTurn_of_edgeServiceEnabled hdue, serviceEdge_eq]
      rfl
    · have hdue : timeoutServiceEnabled (cfgWrite 2 0 s) = true :=
        (timeoutServiceEnabled_iff _).mpr
          ⟨hinit, hcmp, hirq, .inl (hone.resolve_right (by simp [hcmp]))⟩
      rw [captureTurn_of_timeoutServiceEnabled hdue, serviceTimeout_eq]
      rfl

end Sys2Proof.Machine
end

section
/-! Proof of the statement about eager runs (60_exceptions.md rule R245): along an eager run the receive
trace, with what is still due, is what it was and the events raised since. -/

namespace Sys2Proof.Machine

/-- What the service steps still have to forward, with the present counter and level. -/
def State.dueEvents (s : State) : List DecEvent :=
  (if s.capture.edgePend then [.onEdge s.tcnt s.rx] else [])
    ++ (if s.capture.cmpPend then [.onTimeout] else [])

/-- The block as an eager run has it in each phase: an interrupt is outstanding only where the service
step is due, and a handler runs only in the callback. -/
structure EagerPhase.Holds (ph : EagerPhase) (s : State) : Prop where
  initDone : s.capture.initDone = true
  inIrq : s.capture.inIrq = (ph == .callback)
  nonePending : ph ≠ .service → s.capture.edgePend = false ∧ s.capture.cmpPend = false
  onePending : ph = .service → s.capture.edgePend = !s.capture.cmpPend

section
variable {s t : State} {ph : EagerPhase}

theorem dueEvents_eq_nil (h : ph.Holds s) (hph : ph ≠ .service) : s.dueEvents = [] := by
  obtain ⟨hedge, hcmp⟩ := h.nonePending hph
  simp [State.dueEvents, hedge, hcmp]

theorem EagerPhase.Holds.of_capture_eq (h : ph.Holds s) (hcap : t.capture = s.capture) :
    ph.Holds t := by
  obtain ⟨hinit, hirq, hnone, hone⟩ := h
  exact ⟨hcap ▸ hinit, hcap ▸ hirq, hcap ▸ hnone, hcap ▸ hone⟩

/-- What one turn of an eager run does: it leads to a state of the phase, and the receive trace with
what is due grows by what the turn raises. -/
def EagerStep (m : Config.Move) (s t : State) (ph : EagerPhase) : Prop :=
  ph.Holds t ∧ t.rxTrace ++ t.dueEvents = s.rxTrace ++ s.dueEvents ++ raisedEvents m s

/-- A turn that neither forwards nor raises anything stays in its phase. -/
theorem eagerStep_of_capture_eq {m : Config.Move} (hs : ph.Holds s) (hph : ph ≠ .service)
    (hcap : t.capture = s.capture) (hrx : t.rxTrace = s.rxTrace) (hraise : raisedEvents m s = []) :
    EagerStep m s t ph := by
  have ht := hs.of_capture_eq hcap
  refine ⟨ht, ?_⟩
  rw [dueEvents_eq_nil hs hph, dueEvents_eq_nil ht hph, hrx, hraise]
  simp

/-- So does a turn of an agent that neither forwards nor raises. -/
theorem eagerStep_of_other {m : Config.Move} (hs : ph.Holds s) (hph : ph ≠ .service)
    (hcapture : m ≠ .capture) (htick : m ≠ .tick) (hedge : m ≠ .edge) (h : takeTurn m s = .next t) :
    raisedEvents m s = [] ∧ EagerStep m s t ph := by
  have hraise : raisedEvents m s = [] := by
    cases m with
    | tick => exact absurd rfl htick
    | edge => exact absurd rfl hedge
    | _ => rfl
  obtain ⟨-, -, hcap, -⟩ := takeTurn_owned h
  exact ⟨hraise, eagerStep_of_capture_eq hs hph (hcap hcapture htick hedge)
    (takeTurn_keepsPending hcapture h).rxTrace hraise⟩

/-! ### Nothing outstanding -/

theorem captureTurn_of_clear (hs : EagerPhase.clear.Holds s) : captureTurn s = s := by
  obtain ⟨hedge, hcmp⟩ := hs.nonePending nofun
  simp [captureTurn, returnEnabled, edgeServiceEnabled, timeoutServiceEnabled, hs.initDone, hs.inIrq,
    hedge, hcmp]

theorem raisedEvents_tick (s : State) : raisedEvents .tick s
    = if s.tcnt + 1 = s.config.ocr ∧ s.config.cmpIe = true then [.onTimeout] else [] := by
  simp [raisedEvents, and_comm]

/-- A tick makes the timeout service due exactly where it raises the match. -/
theorem eagerStep_tick (hs : EagerPhase.clear.Holds s) :
    EagerStep .tick s (tick s) (if raisedEvents .tick s = [] then .clear else .service) := by
  obtain ⟨hedge, hcmp⟩ := hs.nonePending nofun
  obtain ⟨hocr, hie, -⟩ | ⟨hno, ht⟩ := tick_cases s
  · have hraise : raisedEvents .tick s = [.onTimeout] := by
      rw [raisedEvents_tick, if_pos ⟨hocr, hie⟩]
    rw [EagerStep, hraise, dueEvents_eq_nil hs nofun, tick_of_new_match hocr hie hcmp]
    exact ⟨⟨hs.initDone, hs.inIrq, absurd rfl, fun _ => hedge⟩, by simp [State.dueEvents, hedge]⟩
  · have hraise : raisedEvents .tick s = [] := by
      rw [raisedEvents_tick, if_neg]
      rintro ⟨hocr, hie⟩
      obtain hne | hoff := hno
      · exact hne hocr
      · simp [hie] at hoff
    rw [ht, hraise]
    exact eagerStep_of_capture_eq hs nofun rfl rfl hraise

/-- An edge makes the edge service due exactly where it raises the interrupt. -/
theorem eagerStep_edge (hs : EagerPhase.clear.Holds s) :
    EagerStep .edge s (edge s) (if raisedEvents .edge s = [] then .clear else .service) := by
  obtain ⟨hedge, hcmp⟩ := hs.nonePending nofun
  obtain ⟨hie, -⟩ | ⟨hie, ht⟩ := edge_cases s
  · have hraise : raisedEvents .edge s = [.onEdge s.tcnt (!s.rx)] := by simp [raisedEvents, hie]
    rw [EagerStep, hraise, dueEvents_eq_nil hs nofun, edge_of_new_edge hie hedge]
    exact ⟨⟨hs.initDone, hs.inIrq, absurd rfl, fun _ => by simp [hcmp]⟩,
      by simp [State.dueEvents, hcmp]⟩
  · have hraise : raisedEvents .edge s = [] := by simp [raisedEvents, hie]
    rw [ht, hraise]
    exact eagerStep_of_capture_eq hs nofun rfl rfl hraise

/-- With nothing outstanding a turn that raises an event makes its service due, any other leaves
nothing outstanding. -/
theorem eagerStep_of_clear {m : Config.Move} (hs : EagerPhase.clear.Holds s)
    (h : takeTurn m s = .next t) :
    EagerStep m s t (if raisedEvents m s = [] then .clear else .service) := by
  by_cases hcapture : m = .capture
  · subst hcapture
    cases h
    rw [captureTurn_of_clear hs]
    exact eagerStep_of_capture_eq hs nofun rfl rfl rfl
  by_cases htick : m = .tick
  · subst htick
    cases h
    exact eagerStep_tick hs
  by_cases hedge : m = .edge
  · subst hedge
    cases h
    exact eagerStep_edge hs
  obtain ⟨hraise, hstep⟩ := eagerStep_of_other hs nofun hcapture htick hedge h
  rw [hraise]
  exact hstep

/-! ### The service step and the return step -/

/-- The service step forwards the one event that is due. -/
theorem eagerStep_service (hs : EagerPhase.service.Holds s) :
    EagerStep .capture s (captureTurn s) .callback := by
  have hone := hs.onePending rfl
  cases hcmp : s.capture.cmpPend <;> rw [hcmp] at hone
  · have hdue : edgeServiceEnabled s = true :=
      (edgeServiceEnabled_iff s).mpr ⟨hs.initDone, hone, hs.inIrq, .inl hcmp⟩
    rw [captureTurn_of_edgeServiceEnabled hdue, serviceEdge_eq]
    exact ⟨⟨hs.initDone, rfl, fun _ => ⟨rfl, hcmp⟩, nofun⟩,
      by simp [State.dueEvents, hone, hcmp, raisedEvents]⟩
  · have hdue : timeoutServiceEnabled s = true :=
      (timeoutServiceEnabled_iff s).mpr ⟨hs.initDone, hcmp, hs.inIrq, .inl hone⟩
    rw [captureTurn_of_timeoutServiceEnabled hdue, serviceTimeout_eq]
    exact ⟨⟨hs.initDone, rfl, fun _ => ⟨hone, rfl⟩, nofun⟩,
      by simp [State.dueEvents, hone, hcmp, raisedEvents]⟩

/-- The return step ends the callback. -/
theorem eagerStep_return (hs : EagerPhase.callback.Holds s) :
    EagerStep .capture s (captureTurn s) .clear := by
  obtain ⟨hedge, hcmp⟩ := hs.nonePending nofun
  rw [captureTurn_of_inIrq hs.initDone hs.inIrq]
  exact ⟨⟨hs.initDone, rfl, fun _ => ⟨hedge, hcmp⟩, nofun⟩,
    by simp [State.dueEvents, hedge, hcmp, raisedEvents]⟩

/-! ### The run -/

/-- An eager run takes such a step with each turn. -/
theorem eager_cons_step {m : Config.Move} {ms : List Config.Move} (hs : ph.Holds s)
    (he : eager ph (m :: ms) s = true) (h : takeTurn m s = .next t) :
    ∃ ph', EagerStep m s t ph' ∧ eager ph' ms t = true := by
  simp only [eager, h] at he
  cases ph with
  | clear => exact ⟨_, eagerStep_of_clear hs h, he⟩
  | service =>
    obtain ⟨hm, he⟩ := (Bool.and_eq_true _ _).mp he
    cases eq_of_beq hm
    cases h
    exact ⟨_, eagerStep_service hs, he⟩
  | callback =>
    cases hm : isConfigMove m <;> simp only [hm] at he
    · obtain ⟨hm, he⟩ := (Bool.and_eq_true _ _).mp he
      cases eq_of_beq hm
      cases h
      exact ⟨_, eagerStep_return hs, he⟩
    · have hother (m' : Config.Move) (hm' : isConfigMove m' = false) : m ≠ m' := by
        rintro rfl
        simp [hm] at hm'
      exact ⟨_, (eagerStep_of_other hs nofun (hother _ rfl) (hother _ rfl) (hother _ rfl) h).2, he⟩

/-- Along an eager run every raised event is forwarded, in the order raised. -/
theorem eager_run {ms : List Config.Move} (hs : ph.Holds s) (he : eager ph ms s = true)
    (h : runMoves ms s = .next t) :
    EagerPhase.clear.Holds t ∧ t.rxTrace = s.rxTrace ++ s.dueEvents ++ raisedAlong ms s := by
  induction ms generalizing s ph with
  | nil =>
    cases h
    cases eq_of_beq he
    exact ⟨hs, by simp [dueEvents_eq_nil hs nofun, raisedAlong]⟩
  | cons m ms ih =>
    obtain ⟨u, hu, hrun⟩ := runMoves_cons_inv h
    obtain ⟨ph', ⟨hu', hevents⟩, he'⟩ := eager_cons_step hs he hu
    obtain ⟨ht, htrace⟩ := ih hu' he' hrun
    exact ⟨ht, by simp only [htrace, hevents, raisedAlong, hu, List.append_assoc]⟩

end

/-- Settles O47: an eager run from a quiet receive side starts and ends with nothing outstanding. -/
theorem eagerRunForwardsEveryEvent : Obligations.EagerRunForwardsEveryEvent := by
  intro ms s t hinit hirq hedge hcmp he h
  have hs : EagerPhase.clear.Holds s := ⟨hinit, hirq, fun _ => ⟨hedge, hcmp⟩, nofun⟩
  obtain ⟨ht, htrace⟩ := eager_run hs he h
  rw [dueEvents_eq_nil hs nofun, List.append_nil] at htrace
  obtain ⟨hedge', hcmp'⟩ := ht.nonePending nofun
  exact ⟨htrace, hedge', hcmp', ht.inIrq⟩

end Sys2Proof.Machine
end

section
/-! Proofs of the statements about whole runs of the machine (00_scope.md R6,
41_transmit_scheduler.md section 4, 42_tuning_and_debug.md section 1): a schedule is its turns, a send
runs to completion, a tuning command changes one field. -/

namespace Sys2Proof.Machine

/-! ### A schedule is its turns (log 1) -/

@[simp] theorem State.withSchedule_schedule (s : State) (ms : List Config.Move) :
    (s.withSchedule ms).schedule = ms := rfl

/-- One step of the machine under a schedule is its next turn, under the rest of it. -/
theorem coreStep_withSchedule_cons (m : Config.Move) (ms : List Config.Move) (s : State) :
    core.step (s.withSchedule (m :: ms)) = outcomeWithSchedule ms (takeTurn m s) :=
  takeTurn_withSchedule s ms m

section
variable {M : Host.Core} {s : M.State} (k : Nat)

theorem run_succ_of_next {t : M.State} (h : M.step s = .next t) : M.run (k + 1) s = M.run k t := by
  simp only [Host.Core.run, h]

theorem run_succ_of_fault {r : M.Fault} (h : M.step s = .fault r) : M.run (k + 1) s = .fault r := by
  simp only [Host.Core.run, h]

theorem run_succ_of_refused {r : M.Refusal} (h : M.step s = .refused r) :
    M.run (k + 1) s = .refused r := by
  simp only [Host.Core.run, h]

end

/-- The machine's run under a schedule is the run of its turns, under what is left of it. -/
theorem run_withSchedule_append (ms rest : List Config.Move) (s : State) :
    Host.Core.run core ms.length (s.withSchedule (ms ++ rest))
      = runMoves ms (s.withSchedule rest) := by
  induction ms generalizing s with
  | nil => rfl
  | cons m ms ih =>
    have hstep := coreStep_withSchedule_cons m (ms ++ rest) s
    rw [runMoves, takeTurn_withSchedule]
    cases hturn : takeTurn m s <;> rw [hturn] at hstep
    case next t => exact (run_succ_of_next ms.length hstep).trans (ih t)
    case fault r => exact run_succ_of_fault ms.length hstep
    case refused r => exact run_succ_of_refused ms.length hstep

/-- Settles O59: by induction on the turns, as no turn sees the schedule. -/
theorem runningAScheduleTakesItsTurns : Obligations.RunningAScheduleTakesItsTurns :=
  run_withSchedule_append

/-! ### Turns of the Command agent alone -/

/-- `k` turns of the Command agent lead from `s` to `t`. -/
def CommandTurns (k : Nat) (s t : State) : Prop :=
  runMoves (List.replicate k .command) s = .next t

theorem CommandTurns.one {s t : State} (h : commandTurn s = .next t) : CommandTurns 1 s t :=
  runMoves_cons_next (m := .command) h

theorem CommandTurns.trans {j k : Nat} {s t u : State} (hst : CommandTurns j s t)
    (htu : CommandTurns k t u) : CommandTurns (j + k) s u := by
  rw [CommandTurns, List.replicate_add, runMoves_append hst]
  exact htu

/-- A run of the machine on a schedule of Command turns. -/
theorem run_of_commandTurns {k : Nat} {s t : State} {rest : List Config.Move}
    (hschedule : s.schedule = List.replicate k .command ++ rest)
    (h : CommandTurns k (s.withSchedule rest) t) : Host.Core.run core k s = .next t := by
  have hrun := run_withSchedule_append (List.replicate k .command) rest s
  rw [List.length_replicate, ← hschedule] at hrun
  exact hrun.trans h

/-! ### A send, from its accept step to its end -/

/-- The state that a send's operations lead to: emitted, the output low after the last off-pulse, the
transaction open or not, the sequencer at a position. -/
def State.afterOps (s : State) (ops : List TxOp) (isOpen : Bool) (q : Seq) : State :=
  { s with
    radio := { s.radio with isOpen := isOpen, level := false }
    txTrace := s.txTrace ++ ops
    command := { s.command with seq := q } }

theorem afterOps_afterOps (s : State) (ops ops' : List TxOp) (o o' : Bool) (q q' : Seq) :
    (s.afterOps ops o q).afterOps ops' o' q' = s.afterOps (ops ++ ops') o' q' := by
  simp [State.afterOps]

/-- The two steps of one bit (R163, R164). -/
theorem commandTurns_bit {s : State} {rep idx : Nat} {b : Bit} (hinit : s.capture.initDone = true)
    (hseq : s.command.seq = ⟨.txOn, rep, idx⟩) (hbit : s.frame[idx]? = some b) :
    CommandTurns 2 s (s.afterOps (emitBit b) s.radio.isOpen
      (if idx + 1 < s.frame.length then ⟨.txOn, rep, idx + 1⟩ else ⟨.txEnd, rep, idx⟩)) := by
  have hon := CommandTurns.one (commandTurn_of_txOn hinit hseq hbit)
  have hoff := CommandTurns.one (commandTurn_of_txOff
    (s := (s.rlKey true (onDuration b)).goTo .txOff rep idx) (b := b) hinit rfl hbit)
  have hframe : ((s.rlKey true (onDuration b)).goTo .txOff rep idx).frame = s.frame := rfl
  refine (congrArg (CommandTurns 2 s) ?_).mp (hon.trans hoff)
  rw [hframe]
  split <;> simp [State.afterOps, emitBit, State.rlKey, State.emitTx, State.goTo]

/-- The pulses of a frame from the bit `idx` on. -/
theorem commandTurns_bits {s : State} {rep idx : Nat} (hinit : s.capture.initDone = true)
    (hseq : s.command.seq = ⟨.txOn, rep, idx⟩) (hidx : idx < s.frame.length) :
    CommandTurns (2 * (s.frame.length - idx)) s (s.afterOps (pulseTrain (s.frame.drop idx))
      s.radio.isOpen ⟨.txEnd, rep, s.frame.length - 1⟩) := by
  have hbit := commandTurns_bit hinit hseq (List.getElem?_eq_getElem hidx)
  rw [List.drop_eq_getElem_cons hidx]
  by_cases hlast : idx + 1 < s.frame.length
  · rw [if_pos hlast] at hbit
    have hrest := commandTurns_bits
      (s := s.afterOps (emitBit s.frame[idx]) s.radio.isOpen ⟨.txOn, rep, idx + 1⟩) hinit rfl hlast
    rw [afterOps_afterOps] at hrest
    have hturns : 2 * (s.frame.length - idx) = 2 + 2 * (s.frame.length - (idx + 1)) := by omega
    rw [hturns]
    exact hbit.trans hrest
  · rw [if_neg hlast] at hbit
    have hlen : s.frame.length = idx + 1 := by omega
    rw [List.drop_eq_nil_of_le (by omega)]
    simpa [hlen, pulseTrain] using hbit
termination_by s.frame.length - idx
decreasing_by
  change s.frame.length - (idx + 1) < s.frame.length - idx
  omega

/-- The operations of one repetition of the send in the latches. -/
def State.repetition (s : State) : List TxOp :=
  Machine.repetition s.command.var s.command.hc s.command.addr s.command.cmd s.command.data

/-- One repetition: open, frame, close, wait, and the decision to repeat (R162 to R167). -/
theorem commandTurns_repetition {s : State} {rep : Nat} (hinit : s.capture.initDone = true)
    (hseq : s.command.seq = ⟨.txBegin, rep, 0⟩) :
    CommandTurns (2 * s.frame.length + 3) s (s.afterOps s.repetition false
      (if rep < 2 then ⟨.txBegin, rep + 1, 0⟩ else ⟨.txReact, 2, 0⟩)) := by
  have hpulses := (CommandTurns.one (commandTurn_of_txBegin hinit hseq)).trans
    (commandTurns_bits hinit rfl (frame_length_pos s))
  have hclose := hpulses.trans (.one (commandTurn_of_txEnd hinit rfl))
  have hwait := hclose.trans (.one (commandTurn_of_txDelay hinit rfl))
  have hturns : 2 * s.frame.length + 3 = 1 + 2 * s.frame.length + 1 + 1 := by omega
  rw [hturns]
  refine (congrArg (CommandTurns _ s) ?_).mp hwait
  split <;> simp [State.afterOps, State.repetition, Machine.repetition, encodeAndTransmit, State.frame,
    State.rlBegin, State.rlEnd, State.delayUs, State.emitTx, State.goTo]

/-- A whole send from its first step: three repetitions and the reactivation (R160, R168). -/
theorem commandTurns_send {s : State} (hinit : s.capture.initDone = true)
    (hseq : s.command.seq = ⟨.txBegin, 0, 0⟩) :
    CommandTurns (6 * s.frame.length + 10) s
      (s.afterOps (s.repetition ++ s.repetition ++ s.repetition) false
        ⟨.txReact, 2, 0⟩).rlReactivate.finish := by
  have hfirst := commandTurns_repetition hinit hseq
  have hnext (ops : List TxOp) (rep : Nat) : CommandTurns (2 * s.frame.length + 3)
      (s.afterOps ops false ⟨.txBegin, rep, 0⟩) (s.afterOps (ops ++ s.repetition) false
        (if rep < 2 then ⟨.txBegin, rep + 1, 0⟩ else ⟨.txReact, 2, 0⟩)) := by
    rw [← afterOps_afterOps s ops s.repetition false false ⟨.txBegin, rep, 0⟩]
    exact commandTurns_repetition hinit rfl
  have hall := (hfirst.trans (hnext s.repetition 1)).trans (hnext (s.repetition ++ s.repetition) 2)
  have hturns : 6 * s.frame.length + 10 = (2 * s.frame.length + 3) + (2 * s.frame.length + 3)
    + (2 * s.frame.length + 3) + 1 := by omega
  rw [hturns]
  exact hall.trans (.one (commandTurn_of_txReact hinit rfl))

/-! ### The two runs from the accept step -/

/-- The turn that accepts the word of a command of the build runs the command (R161). -/
theorem commandTurns_accept {s t : State} {i : Instr} (h : acceptEnabled s = true)
    (hwf : i.wellFormed s.params = true) (hw : s.port = some (encode i))
    (ht : exec i s.takeWord = .next t) : CommandTurns 1 s t := by
  have hi : decode s.takeWord.params (encode i) = .ok i := decodeOfEncodeIsTheInstruction _ i hwf
  refine .one ?_
  rw [commandTurn_of_acceptEnabled h hw, accept_of_decode hi, ht]

/-- Settles O28: the accept step begins a send, whose steps emit its whole trace. -/
theorem sendRunsToCompletion : Obligations.SendRunsToCompletion := by
  intro s v hc addr cmd data rest henabled hopen hbuilt hw n hschedule
  obtain ⟨hinit, -, -⟩ := (acceptEnabled_iff s).mp henabled
  have haccept : CommandTurns 1 (s.withSchedule rest)
      ((s.withSchedule rest).takeWord.startSend v hc addr cmd data) := by
    cases v with
    | formatA => exact commandTurns_accept (i := .sendA hc addr cmd data) henabled rfl hw rfl
    | formatB =>
      have hsendB := exec_sendB_of_built (s := (s.withSchedule rest).takeWord) (hbuilt rfl)
      exact commandTurns_accept (i := .sendB hc addr cmd data) henabled (hbuilt rfl) hw
        (hsendB hc addr cmd data)
  have hsend := haccept.trans (commandTurns_send hinit rfl)
  have hn : n = 1 + (6 * (frameBits v hc addr cmd data).length + 10) := by omega
  rw [hn] at hschedule ⊢
  refine ⟨_, run_of_commandTurns hschedule hsend, ?_⟩
  simp [State.afterOps, State.repetition, sendTrace_eq, hopen]

/-- A tuning command from its accept step to its end (R180 to R182). -/
theorem commandTurns_tuning {s : State} {i : Instr} {k : Kind} {v : Byte}
    (h : acceptEnabled s = true) (hwf : i.wellFormed s.params = true)
    (hw : s.port = some (encode i)) (hi : exec i s.takeWord = .next (s.takeWord.startTune k v)) :
    CommandTurns 2 s (tune (s.takeWord.startTune k v)) := by
  obtain ⟨hinit, -, -⟩ := (acceptEnabled_iff s).mp h
  have htune : commandTurn (s.takeWord.startTune k v) = .next (tune (s.takeWord.startTune k v)) :=
    commandTurn_of_tune hinit rfl
  exact (commandTurns_accept h hwf hw hi).trans (.one htune)

/-- Settles O29: the accept step latches the value, the `TUNE` step writes the three fields back, two of
them as they were. -/
theorem tuningChangesOneDescriptorField : Obligations.TuningChangesOneDescriptorField := by
  intro s val rest henabled hschedule
  refine ⟨fun hw => ?_, fun hw => ?_⟩
  · have hrun := commandTurns_tuning (s := s.withSchedule rest) (i := .setGain val) henabled rfl hw rfl
    refine ⟨_, run_of_commandTurns hschedule hrun, ?_⟩
    simp [tune, tuneGain, tuneDrssi]
  · have hrun := commandTurns_tuning (s := s.withSchedule rest) (i := .setDrssi val) henabled rfl hw rfl
    refine ⟨_, run_of_commandTurns hschedule hrun, ?_⟩
    simp [tune, tuneGain, tuneDrssi]

end Sys2Proof.Machine
end
